-- ==== Sys2Proof/Word.lean ====
section
/-! DEFINITION. The word types and index types of the DC840 (spec/10 R201, spec/00 section 0.9). -/

namespace Sys2Proof

/-- One byte on the two-wire bus. -/
abbrev Byte := BitVec 8

/-- A 16-bit value of the host's records: a key half, a release, a kind set, a session number (R70, R201). -/
abbrev Half := BitVec 16

/-- A port number, 0 to 7. -/
abbrev PortId := Fin 8

/-- A Profile Memory slot number, 0 to 47 (R70). -/
abbrev SlotId := Fin 48

/-- A notice group, 0 to 8; group 8 is the device group (R175). -/
abbrev GroupId := Fin 9

end Sys2Proof
end

