-- ==== Sys2Proof/Syntax.lean ====
section
/-! DEFINITION. The commands of the DC840: one constructor of `Instr` for each row of spec/opcode_table.json.

A host command carries its frame's tag and its parameters as the bytes and 16-bit values the frame holds (R188, R201), so
that a value the owning rule refuses is a command as well. A port event carries its port. See notes/assumptions/1.md. -/

namespace Sys2Proof

/-- The status codes of spec/10 R196. -/
inductive Status where
  | ok | badCrc | frameShort | badCode | badLength | badParam | wrongState | budgetBusy | noBudget
  | notFound | duplicate | inUse | full | stale | noResponse
deriving DecidableEq, Repr

/-- The 18-byte policy record of Set Policy as sent (spec/10 R202, the record table). -/
structure PolicyBytes where
  fixedDevice : Byte
  upgradeOnRelease : Byte
  priority : Byte
  listLength : Byte
  position1 : Byte
  position2 : Byte
  position3 : Byte
  position4 : Byte
  position5 : Byte
  maxSignature : Byte
  evaluationWindow : Byte
  holdCode : Byte
  identityWait : Byte
  powerGood : Byte
  linkTimeout : Byte
  toggleOff : Byte
  recoveryLimit : Byte
  faultRetries : Byte
deriving DecidableEq, Repr

/-- The 18 parameter bytes of PM Write as sent (spec/10 R202): key, release, pinned signature, ten tallies in the order
L, A, B, H, F (accepted then rejected), target slot. -/
structure ImportBytes where
  vendor : Half
  product : Half
  release : Half
  pinned : Byte
  lAcc : Byte
  lRej : Byte
  aAcc : Byte
  aRej : Byte
  bAcc : Byte
  bRej : Byte
  hAcc : Byte
  hRej : Byte
  fAcc : Byte
  fRej : Byte
  target : Byte
deriving DecidableEq, Repr

/-- The commands. Each docstring names the rule the row cites. -/
inductive Instr where
  /-- R197 -/
  | getInfo (tag : Byte)
  /-- R198 -/
  | getDeviceStatus (tag : Byte)
  /-- R133: the new total in mA -/
  | setBudget (tag : Byte) (total : Half)
  /-- R172: settle threshold, wait limit in s -/
  | setGlobals (tag threshold waitLimit : Byte)
  /-- R173 -/
  | getGlobals (tag : Byte)
  /-- R199 -/
  | resetDevice (tag : Byte)
  /-- R163 -/
  | setPolicy (tag port : Byte) (record : PolicyBytes)
  /-- R170 -/
  | getPolicy (tag port : Byte)
  /-- R18 -/
  | enablePort (tag port : Byte)
  /-- R19 -/
  | disablePort (tag port : Byte)
  /-- R41 -/
  | getPort (tag port : Byte)
  /-- R102 -/
  | postIdentity (tag port : Byte) (vendor product release : Half)
  /-- R67 -/
  | retryTrials (tag port : Byte)
  /-- R157 -/
  | resetPort (tag port : Byte)
  /-- R90 -/
  | pmLookup (tag : Byte) (vendor product : Half)
  /-- R91 -/
  | pmRead (tag slot : Byte)
  /-- R93 -/
  | pmWrite (tag : Byte) (entry : ImportBytes)
  /-- R94 -/
  | pmRetire (tag : Byte) (vendor product : Half)
  /-- R95 -/
  | pmPin (tag : Byte) (vendor product : Half) (signature : Byte)
  /-- R96 -/
  | pmUnpin (tag : Byte) (vendor product : Half)
  /-- R97 -/
  | pmClear (tag option : Byte)
  /-- R98 -/
  | pmOrder (tag page : Byte)
  /-- R181 -/
  | readNotices (tag : Byte)
  /-- R182 -/
  | ackNotices (tag group : Byte) (kinds : Half) (epoch : Byte)
  /-- R184 -/
  | setNoticeMask (tag : Byte) (kinds : Half)
  /-- R191: the bytes written in the transaction, first byte first -/
  | failedFrame (bytes : List Byte)
  /-- R42: the level of ADDR at the end of the reset (true is high) -/
  | powerOnReset (addr : Bool)
  /-- R42: RST# goes low -/
  | pinReset
  /-- R186: RST# returns high, with the level of ADDR in that event -/
  | pinResetRelease (addr : Bool)
  /-- R17 -/
  | attnRising (port : PortId)
  /-- R31 -/
  | attnFalling (port : PortId)
  /-- R5 -/
  | hennRising (port : PortId)
  /-- R65 -/
  | hennFalling (port : PortId)
  /-- R149 -/
  | loknRising (port : PortId)
  /-- R148 -/
  | loknFalling (port : PortId)
  /-- R6 -/
  | probeBandEntered (port : PortId)
  /-- R6 -/
  | probeBandLeft (port : PortId)
  /-- R6 -/
  | probeTimerExpiry (port : PortId)
  /-- R141: the reading in mA -/
  | currentReading (port : PortId) (reading : Nat)
  /-- R12 -/
  | rePresentTimerExpiry (port : PortId)
  /-- R29 -/
  | settleExpiry (port : PortId)
  /-- R30 -/
  | identityWaitExpiry (port : PortId)
  /-- R36 -/
  | holdExpiry (port : PortId)
  /-- R20 -/
  | powerGoodExpiry (port : PortId)
  /-- R56 -/
  | evaluationWindowExpiry (port : PortId)
  /-- R130: the port whose queue entry's wait timer expires -/
  | budgetWaitExpiry (port : PortId)
  /-- R146 -/
  | coolDownExpiry (port : PortId)
  /-- R152 -/
  | toggleOffExpiry (port : PortId)
  /-- R150 -/
  | linkTimerExpiry (port : PortId)
  /-- R186: the byte after a START or repeated START: the 7-bit address in bits 7 to 1, bit 0 set for a read -/
  | addressByteReceived (byte : Byte)
  /-- R189 -/
  | dataByteReceived (byte : Byte)
deriving DecidableEq, Repr

end Sys2Proof
end

