-- ==== Sys2Proof/Decode.lean ====
section
/-! DEFINITION. From frame bytes to a command and back (spec/10 R188 to R192, R200, R201), and the table's word decoder. -/

namespace Sys2Proof

/-- One shift of the CRC-8 register: left by one, exclusive-or with 07h when the bit shifted out was 1 (R192). -/
def crcShift (r : Byte) : Byte :=
  if r.msb then (r <<< 1) ^^^ 0x07#8 else r <<< 1

/-- One byte into the CRC-8 register: exclusive-or, then eight shifts (R192). -/
def crcByte (r b : Byte) : Byte :=
  crcShift (crcShift (crcShift (crcShift (crcShift (crcShift (crcShift (crcShift (r ^^^ b))))))))

/-- The CRC-8 over a run of bytes, the register starting at 00h (R192). -/
def crc8 (bytes : List Byte) : Byte :=
  bytes.foldl crcByte 0x00#8

/-- Two bytes as a 16-bit value, most significant byte first (R201). -/
def halfOf (hi lo : Byte) : Half := hi ++ lo

/-- The most significant byte of a 16-bit value. -/
def hiByte (h : Half) : Byte := h.extractLsb' 8 8

/-- The least significant byte of a 16-bit value. -/
def loByte (h : Half) : Byte := h.extractLsb' 0 8

/-- The parameter length the code table gives a command code; `none` for a code that names no command (R200). -/
def parameterLength (code : Byte) : Option Nat :=
  match code.toNat with
  | 0x01 => some 0
  | 0x02 => some 0
  | 0x03 => some 2
  | 0x04 => some 2
  | 0x05 => some 0
  | 0x06 => some 0
  | 0x10 => some 19
  | 0x11 => some 1
  | 0x12 => some 1
  | 0x13 => some 1
  | 0x14 => some 1
  | 0x15 => some 7
  | 0x16 => some 1
  | 0x17 => some 1
  | 0x20 => some 4
  | 0x21 => some 1
  | 0x22 => some 18
  | 0x23 => some 4
  | 0x24 => some 5
  | 0x25 => some 4
  | 0x26 => some 1
  | 0x27 => some 1
  | 0x30 => some 0
  | 0x31 => some 4
  | 0x32 => some 2
  | _ => none

/-- The command of a code and its parameter bytes (R200, R201, R202): `none` when the pair is no row of the code table. -/
def commandOf (tag code : Byte) (params : List Byte) : Option Instr :=
  match code.toNat, params with
  | 0x01, [] => some (.getInfo tag)
  | 0x02, [] => some (.getDeviceStatus tag)
  | 0x03, [a, b] => some (.setBudget tag (halfOf a b))
  | 0x04, [a, b] => some (.setGlobals tag a b)
  | 0x05, [] => some (.getGlobals tag)
  | 0x06, [] => some (.resetDevice tag)
  | 0x10, [p, r0, r1, r2, r3, r4, r5, r6, r7, r8, r9, r10, r11, r12, r13, r14, r15, r16, r17] =>
    some (.setPolicy tag p ⟨r0, r1, r2, r3, r4, r5, r6, r7, r8, r9, r10, r11, r12, r13, r14, r15, r16, r17⟩)
  | 0x11, [p] => some (.getPolicy tag p)
  | 0x12, [p] => some (.enablePort tag p)
  | 0x13, [p] => some (.disablePort tag p)
  | 0x14, [p] => some (.getPort tag p)
  | 0x15, [p, a, b, c, d, e, f] => some (.postIdentity tag p (halfOf a b) (halfOf c d) (halfOf e f))
  | 0x16, [p] => some (.retryTrials tag p)
  | 0x17, [p] => some (.resetPort tag p)
  | 0x20, [a, b, c, d] => some (.pmLookup tag (halfOf a b) (halfOf c d))
  | 0x21, [n] => some (.pmRead tag n)
  | 0x22, [a, b, c, d, e, f, pin, t0, t1, t2, t3, t4, t5, t6, t7, t8, t9, slot] =>
    some (.pmWrite tag ⟨halfOf a b, halfOf c d, halfOf e f, pin, t0, t1, t2, t3, t4, t5, t6, t7, t8, t9, slot⟩)
  | 0x23, [a, b, c, d] => some (.pmRetire tag (halfOf a b) (halfOf c d))
  | 0x24, [a, b, c, d, g] => some (.pmPin tag (halfOf a b) (halfOf c d) g)
  | 0x25, [a, b, c, d] => some (.pmUnpin tag (halfOf a b) (halfOf c d))
  | 0x26, [o] => some (.pmClear tag o)
  | 0x27, [g] => some (.pmOrder tag g)
  | 0x30, [] => some (.readNotices tag)
  | 0x31, [g, a, b, e] => some (.ackNotices tag g (halfOf a b) e)
  | 0x32, [a, b] => some (.setNoticeMask tag (halfOf a b))
  | _, _ => none

/-- The checks on a taken frame, in the order of R191, over the bytes counted as received: the command it carries, or the
status of the first check that fails. Surplus bytes beyond position L + 4 play no part (R189). -/
def decodeFrame (bytes : List Byte) : Except Status Instr :=
  match bytes with
  | tag :: code :: len :: rest =>
    if 32 < len.toNat then .error .badLength
    else if rest.length < len.toNat + 1 then .error .frameShort
    else if crc8 (tag :: code :: len :: rest.take len.toNat) ≠ rest.getD len.toNat 0 then .error .badCrc
    else
      match parameterLength code with
      | none => .error .badCode
      | some l =>
        if len.toNat = l then
          match commandOf tag code (rest.take len.toNat) with
          | some c => .ok c
          | none => .error .badLength
        else .error .badLength
  | _ => .error .frameShort

/-- The code and the parameter bytes of a host command (R200, R202); `none` for an event that is no host command. -/
def encodeCommand : Instr → Option (Byte × Byte × List Byte)
  | .getInfo t => some (t, 0x01, [])
  | .getDeviceStatus t => some (t, 0x02, [])
  | .setBudget t v => some (t, 0x03, [hiByte v, loByte v])
  | .setGlobals t a b => some (t, 0x04, [a, b])
  | .getGlobals t => some (t, 0x05, [])
  | .resetDevice t => some (t, 0x06, [])
  | .setPolicy t p r => some (t, 0x10, [p, r.fixedDevice, r.upgradeOnRelease, r.priority, r.listLength, r.position1,
      r.position2, r.position3, r.position4, r.position5, r.maxSignature, r.evaluationWindow, r.holdCode, r.identityWait,
      r.powerGood, r.linkTimeout, r.toggleOff, r.recoveryLimit, r.faultRetries])
  | .getPolicy t p => some (t, 0x11, [p])
  | .enablePort t p => some (t, 0x12, [p])
  | .disablePort t p => some (t, 0x13, [p])
  | .getPort t p => some (t, 0x14, [p])
  | .postIdentity t p v d r => some (t, 0x15, [p, hiByte v, loByte v, hiByte d, loByte d, hiByte r, loByte r])
  | .retryTrials t p => some (t, 0x16, [p])
  | .resetPort t p => some (t, 0x17, [p])
  | .pmLookup t v d => some (t, 0x20, [hiByte v, loByte v, hiByte d, loByte d])
  | .pmRead t n => some (t, 0x21, [n])
  | .pmWrite t e => some (t, 0x22, [hiByte e.vendor, loByte e.vendor, hiByte e.product, loByte e.product,
      hiByte e.release, loByte e.release, e.pinned, e.lAcc, e.lRej, e.aAcc, e.aRej, e.bAcc, e.bRej, e.hAcc, e.hRej,
      e.fAcc, e.fRej, e.target])
  | .pmRetire t v d => some (t, 0x23, [hiByte v, loByte v, hiByte d, loByte d])
  | .pmPin t v d g => some (t, 0x24, [hiByte v, loByte v, hiByte d, loByte d, g])
  | .pmUnpin t v d => some (t, 0x25, [hiByte v, loByte v, hiByte d, loByte d])
  | .pmClear t o => some (t, 0x26, [o])
  | .pmOrder t g => some (t, 0x27, [g])
  | .readNotices t => some (t, 0x30, [])
  | .ackNotices t g k e => some (t, 0x31, [g, hiByte k, loByte k, e])
  | .setNoticeMask t k => some (t, 0x32, [hiByte k, loByte k])
  | .failedFrame _ => none
  | .powerOnReset _ => none
  | .pinReset => none
  | .pinResetRelease _ => none
  | .attnRising _ => none
  | .attnFalling _ => none
  | .hennRising _ => none
  | .hennFalling _ => none
  | .loknRising _ => none
  | .loknFalling _ => none
  | .probeBandEntered _ => none
  | .probeBandLeft _ => none
  | .probeTimerExpiry _ => none
  | .currentReading _ _ => none
  | .rePresentTimerExpiry _ => none
  | .settleExpiry _ => none
  | .identityWaitExpiry _ => none
  | .holdExpiry _ => none
  | .powerGoodExpiry _ => none
  | .evaluationWindowExpiry _ => none
  | .budgetWaitExpiry _ => none
  | .coolDownExpiry _ => none
  | .toggleOffExpiry _ => none
  | .linkTimerExpiry _ => none
  | .addressByteReceived _ => none
  | .dataByteReceived _ => none

/-- The whole frame of a host command (R188): tag, code, length, parameters, CRC-8. -/
def encodeFrame (i : Instr) : Option (List Byte) :=
  (encodeCommand i).map fun (tag, code, params) =>
    let body := tag :: code :: BitVec.ofNat 8 params.length :: params
    body ++ [crc8 body]

/-- spec/opcode_table.json gives no row any bits (every "fields" is empty), so no word spells a command. -/
def decodeTableWord (_nbits _w : Nat) : Option Instr := none

end Sys2Proof
end

