-- ==== Sys2Proof/Config.lean ====
section
/-! DEFINITION. The values the spec leaves open. -/

namespace Sys2Proof

/-- A free choice, fresh for each value of the counter it is applied to. It decides which of several events that the spec
does not order is taken first: timers that expire at the same instant (log 3), and the port units that act on one pin
change (log 4). It has no body, so nothing can be proved about the order chosen. -/
opaque Config.freePick : Nat → Nat

end Sys2Proof
end

