-- ==== Sys2Proof/Machine/State.lean ====
section
/-! DEFINITION. The state of the DC840 as plain data, and its value after a power-on reset. Every field cites the rule of
spec/ that names it; INVENTORY.md lists them with their reset values. -/

namespace Sys2Proof.Machine

/-- The six charge signatures (R1). -/
inductive Sig where
  | P | L | A | B | H | F
deriving DecidableEq, Repr

/-- The port states (R16). -/
inductive PortState where
  | disabled | powering | idle | occupied | hold | fault | recovery | quarantined
deriving DecidableEq, Repr

/-- The quarantine reason (R16). -/
inductive QuarantineReason where
  | link | overcurrent
deriving DecidableEq, Repr

/-- The session phases (R22, R26). -/
inductive Phase where
  | settling | identifying | representing | evaluating | waitingBudget | steady
deriving DecidableEq, Repr

/-- The mode of a session (R25): DATA while the hub uses the lines, CHARGE otherwise. -/
inductive Mode where
  | data | charge
deriving DecidableEq, Repr

/-- The outcomes of an evaluation (R56, R58). -/
inductive Verdict where
  | accepted | rejected | inconclusive
deriving DecidableEq, Repr

/-- One entry of a session's verdict list (R59). -/
structure VerdictEntry where
  sig : Sig
  verdict : Verdict
  folded : Bool
deriving DecidableEq, Repr

/-- The kind of a trial step (R43). -/
inductive StepKind where
  | evaluate | present
deriving DecidableEq, Repr

/-- One step of a trial sequence (R43). -/
structure TrialStep where
  sig : Sig
  kind : StepKind
deriving DecidableEq, Repr

/-- The requesters of a re-present (R10, R62). -/
inductive Requester where
  | sequencer | holdExpiry | shed | resumption | hub
deriving DecidableEq, Repr

/-- The re-present record while a re-present is in flight (R9). `left` is the time left on its timer in steps of 5 ms;
`starting` is the letter presented when it began, absent when it began from neutral. -/
structure RePresent where
  target : Sig
  left : Nat
  hubRetarget : Bool
  requester : Requester
  starting : Option Sig
deriving DecidableEq, Repr

/-- The probe detector (R6). -/
inductive Detector where
  | off | watching | timing | replying
deriving DecidableEq, Repr

/-- The resume plan of a kept session (R153). -/
inductive ResumePlan where
  | settle | rest | continueTrials
deriving DecidableEq, Repr

/-- The session policy: the copy a session takes of its port's policy (R25, R166). The identity wait is in seconds. -/
structure SessionPolicy where
  trialList : List Sig
  maxSig : Sig
  identityWait : Nat
deriving DecidableEq, Repr

/-- A device identity (R101). -/
structure Identity where
  vendor : Half
  product : Half
  release : Half
deriving DecidableEq, Repr

/-- The session record (R22), the trial sequencer's items that belong to it (R43), and its resume plan and resumption window
(R153). `phase` is absent in HOLD and while suspended; `held` is the held phase, present in HOLD. `presented` is the
port's presented condition, and while suspended the kept signature (R38). -/
structure Session where
  number : Half
  phase : Option Phase
  held : Option Phase
  presented : Option Sig
  target : Option Sig
  mode : Mode
  policy : SessionPolicy
  trialsBegun : Bool
  identity : Option Identity
  boundSlot : Option SlotId
  verdicts : List VerdictEntry
  sum : Nat
  count : Nat
  probeSeen : Bool
  lastMean : Option Nat
  shed : Bool
  remaining : List TrialStep
  current : Option TrialStep
  recomputeDue : Bool
  resumePlan : Option ResumePlan
  resumptionWindow : Bool
deriving DecidableEq, Repr

/-- The port policy record (R161). The evaluation window and the identity wait are in seconds, the power-good wait in
steps of 5 ms. -/
structure Policy where
  enabled : Bool
  fixedDevice : Bool
  priority : Nat
  trialList : List Sig
  maxSig : Sig
  evaluationWindow : Nat
  holdCode : Nat
  identityWait : Nat
  upgradeOnRelease : Bool
  powerGood : Nat
  linkTimeout : Nat
  toggleOff : Nat
  recoveryLimit : Nat
  faultRetries : Nat
deriving DecidableEq, Repr

/-- The port timers but for the re-present timer, which its record holds (R42). `none` is stopped; `some n` runs with `n`
steps of 5 ms left. -/
structure Timers where
  settle : Option Nat
  identityWait : Option Nat
  hold : Option Nat
  powerGood : Option Nat
  evaluation : Option Nat
  probe : Option Nat
  coolDown : Option Nat
  toggleOff : Option Nat
  link : Option Nat
deriving DecidableEq, Repr

/-- The levels of a port's input pins: ATTn, HENn and LOKn active (R17), DAn in the probe band (R6). -/
structure Pins where
  att : Bool
  hen : Bool
  lok : Bool
  probeBand : Bool
deriving DecidableEq, Repr

/-- A port unit (section 0.4, R16, R2, R9, R142, R23, R24, R161). `fixed` is the port's kind, read from the policy at Enable
Port (R18). -/
structure Port where
  pins : Pins
  state : PortState
  quarantine : Option QuarantineReason
  fixed : Bool
  switchOn : Bool
  presented : Option Sig
  rePresent : Option RePresent
  detector : Detector
  overcurrent : Bool
  latest : Nat
  tripCount : Nat
  recoveryCount : Nat
  counter : Half
  session : Option Session
  policy : Policy
  timers : Timers
deriving DecidableEq, Repr

/-- One entry of the budget wait queue (R126). -/
structure QueueEntry where
  port : PortId
  sig : Sig
  left : Nat
deriving DecidableEq, Repr

/-- The budget arbiter (R118). Currents are in mA, the wait limit in seconds. -/
structure Budget where
  total : Nat
  pendingTotal : Option Nat
  victims : Vector Bool 8
  grants : Vector Nat 8
  queue : List QueueEntry
  waitLimit : Nat
deriving DecidableEq, Repr

/-- The two counts of one signature in an entry (R70). -/
structure Tally where
  acc : Nat
  rej : Nat
deriving DecidableEq, Repr

/-- The tallies of an entry; P has none (R70). -/
structure Tallies where
  l : Tally
  a : Tally
  b : Tally
  h : Tally
  f : Tally
deriving DecidableEq, Repr

/-- The stored fields of a Profile Memory entry (R70). -/
structure Entry where
  vendor : Half
  product : Half
  release : Half
  pinned : Option Sig
  tallies : Tallies
  users : Nat
deriving DecidableEq, Repr

/-- The states of an entry; derived, never stored (R75). -/
inductive EntryState where
  | new | tentative | settled | pinned
deriving DecidableEq, Repr

/-- The Profile Memory (R70, R80, R82, R76). The recency list is front first. -/
structure ProfileMemory where
  slots : Vector (Option Entry) 48
  recency : List SlotId
  orderCount : Half
  threshold : Nat
deriving DecidableEq, Repr

/-- The notice kinds (R176). -/
inductive Kind where
  | attach | detach | verdict | steady | wait | grant | shed | fault | recovery | quarantine | identity
  | budgetApplied | pmEvict | pmFull
deriving DecidableEq, Repr

/-- A notice group (R175). A pending set is a set of kinds in the 16-bit form of R201. -/
structure Group where
  pending : Half
  epoch : Byte
deriving DecidableEq, Repr

/-- The notice unit (R175). `alertLow` is true while ALERT# is driven low. -/
structure Notices where
  groups : Vector Group 9
  mask : Half
  alertLow : Bool
deriving DecidableEq, Repr

/-- The part's place in a bus transaction (R186, R189, R195): not addressed, addressed for a write, for a read. -/
inductive Bus where
  | notAddressed | write | read
deriving DecidableEq, Repr

/-- The frame in assembly (R189): the bytes received, the declared length once it has arrived, the length-fault mark. The
count of bytes is the length of the list. -/
structure Frame where
  bytes : List Byte
  declared : Option Nat
  lengthFault : Bool
deriving DecidableEq, Repr

/-- What the response slot holds: a response without its length and CRC bytes, which are computed from it (R194). -/
structure Response where
  status : Status
  tag : Byte
  code : Byte
  data : List Byte
deriving DecidableEq, Repr

/-- The host port (R186, R189, R194). `inReset` is true while RST# is held low; `ack` is the acknowledge given to the last
byte. -/
structure HostPort where
  address : BitVec 7
  inReset : Bool
  bus : Bus
  ack : Bool
  frame : Option Frame
  response : Option Response
deriving DecidableEq, Repr

/-- The state of the part, with the queue of commands that wait. `freeCount` is the model's own: it makes each free choice a
fresh one (logs 3, 4, 20). -/
structure State where
  ports : Vector Port 8
  budget : Budget
  memory : ProfileMemory
  notices : Notices
  host : HostPort
  freeCount : Nat
  pending : List Instr
deriving DecidableEq, Repr

/-- The part never stops: the spec gives no event that ends its operation, so no fault exists and none is raised. Safe:
there is nothing the model stops on. -/
inductive Fault where
deriving DecidableEq, Repr

/-- The refusals. -/
inductive Refusal where
  /-- Raised by an arm of `exec` for a command that has no meaning yet; safe, since the model then says nothing of it. No
  arm raises it now. -/
  | notModelled (mnemonic : String)
deriving DecidableEq, Repr

/-- The policy record's reset values (R161). -/
def Policy.reset : Policy where
  enabled := false
  fixedDevice := false
  priority := 1
  trialList := [.F, .H, .B, .A, .L]
  maxSig := .F
  evaluationWindow := 4
  holdCode := 3
  identityWait := 0
  upgradeOnRelease := true
  powerGood := 20
  linkTimeout := 4
  toggleOff := 10
  recoveryLimit := 3
  faultRetries := 2

/-- Every port timer stopped (R42). -/
def Timers.stopped : Timers where
  settle := none
  identityWait := none
  hold := none
  powerGood := none
  evaluation := none
  probe := none
  coolDown := none
  toggleOff := none
  link := none

/-- A port unit after any reset (R42, R160, R161); the pins are inputs and keep the levels the board gives them. -/
def Port.reset (pins : Pins) : Port where
  pins := pins
  state := .disabled
  quarantine := none
  fixed := false
  switchOn := false
  presented := none
  rePresent := none
  detector := .off
  overcurrent := false
  latest := 0
  tripCount := 0
  recoveryCount := 0
  counter := 0
  session := none
  policy := Policy.reset
  timers := Timers.stopped

/-- The budget arbiter after any reset (R118, R140). -/
def Budget.reset : Budget where
  total := 8000
  pendingTotal := none
  victims := Vector.replicate 8 false
  grants := Vector.replicate 8 0
  queue := []
  waitLimit := 5

/-- The Profile Memory after a power-on reset (R99). -/
def ProfileMemory.reset : ProfileMemory where
  slots := Vector.replicate 48 none
  recency := []
  orderCount := 0
  threshold := 3

/-- The notice unit after any reset (R175). -/
def Notices.reset : Notices where
  groups := Vector.replicate 9 ⟨0, 0⟩
  mask := 0
  alertLow := false

/-- The host port after a power-on reset that sampled the given bus address (R186, R194). -/
def HostPort.reset (address : BitVec 7) : HostPort where
  address := address
  inReset := false
  bus := .notAddressed
  ack := false
  frame := none
  response := none

/-- The part right after a power-on reset, every input pin inactive, ADDR low and RST# high (log 5), nothing queued. -/
def State.reset : State where
  ports := Vector.replicate 8 (Port.reset ⟨false, false, false, false⟩)
  budget := Budget.reset
  memory := ProfileMemory.reset
  notices := Notices.reset
  host := HostPort.reset 0x5C#7
  freeCount := 0
  pending := []

end Sys2Proof.Machine
end

