-- ==== Sys2Proof/Machine/Flags.lean ====
section
/-! DEFINITION. The notice unit: pending sets, epochs, the mask and ALERT# (R175 to R185). -/

namespace Sys2Proof.Machine

/-- The bit of a kind in a kind set (R201, the kind table). -/
def Kind.bit : Kind → Nat
  | .attach => 0
  | .detach => 1
  | .verdict => 2
  | .steady => 3
  | .wait => 4
  | .grant => 5
  | .shed => 6
  | .fault => 7
  | .recovery => 8
  | .quarantine => 9
  | .identity => 10
  | .budgetApplied => 11
  | .pmEvict => 12
  | .pmFull => 13

/-- The kind set that holds one kind. -/
def Kind.mask (k : Kind) : Half := BitVec.twoPow 16 k.bit

/-- The kinds of the port groups, bits 0 to 10 (R176, R201). -/
def portKinds : Half := 0x07FF

/-- The kinds of the device group, bits 11 to 13 (R176, R201). -/
def deviceKinds : Half := 0x3800

/-- All fourteen kinds; bits 14 and 15 name none (R201). -/
def allKinds : Half := 0x3FFF

/-- The kinds of a group's class (R176). -/
def groupKinds (g : GroupId) : Half := if g.val = 8 then deviceKinds else portKinds

/-- The notice group of a port (section 0.9). -/
def portGroup (p : PortId) : GroupId := p.castLE (by decide)

/-- The device group (R175). -/
def deviceGroup : GroupId := 8

/-- Some group holds a pending kind that is not masked (R179). -/
def Notices.unmaskedPending (n : Notices) : Bool :=
  n.groups.any fun g => g.pending &&& ~~~n.mask != 0

/-- ALERT# is brought into line (R179). -/
def Notices.alertUpdate (n : Notices) : Notices :=
  { n with alertLow := n.unmaskedPending }

/-- One group replaced. -/
def Notices.setGroup (n : Notices) (g : GroupId) (x : Group) : Notices :=
  { n with groups := n.groups.set g.val x }

/-- A raise: the kind joins the pending set, the epoch goes up by one, ALERT# follows (R177). -/
def Notices.raise (n : Notices) (g : GroupId) (k : Kind) : Notices :=
  let x := n.groups[g.val]
  (n.setGroup g { pending := x.pending ||| k.mask, epoch := x.epoch + 1 }).alertUpdate

/-- The named kinds leave a group's pending set; the epoch stays; ALERT# follows (R182). -/
def Notices.clear (n : Notices) (g : GroupId) (kinds : Half) : Notices :=
  let x := n.groups[g.val]
  (n.setGroup g { x with pending := x.pending &&& ~~~kinds }).alertUpdate

/-- The mask replaced whole; ALERT# follows (R184). -/
def Notices.setMask (n : Notices) (kinds : Half) : Notices :=
  { n with mask := kinds }.alertUpdate

/-- A group of the notice unit. -/
def State.group (s : State) (g : GroupId) : Group := s.notices.groups[g.val]

/-- A notice raised in a group (R177). -/
def State.raise (s : State) (g : GroupId) (k : Kind) : State :=
  { s with notices := s.notices.raise g k }

/-- A notice raised in a port's group. -/
def State.raisePort (s : State) (p : PortId) (k : Kind) : State := s.raise (portGroup p) k

/-- A notice raised in the device group. -/
def State.raiseDevice (s : State) (k : Kind) : State := s.raise deviceGroup k

end Sys2Proof.Machine
end

