-- ==== Sys2Proof/Machine/Signatures.lean ====
section
/-! DEFINITION. The fixed facts of the six signatures (R1), the supply switch of a port state (R16), the taps (R3). -/

namespace Sys2Proof.Machine

/-- The rank order, P lowest (R1). -/
def Sig.rank : Sig → Nat
  | .P => 1
  | .L => 2
  | .A => 3
  | .B => 4
  | .H => 5
  | .F => 6

/-- The offered current in mA (R1). -/
def Sig.offered : Sig → Nat
  | .P => 500
  | .L => 1000
  | .A => 1500
  | .B => 1500
  | .H => 2100
  | .F => 2400

/-- The take-up level in mA; P has none and is never evaluated (R1). -/
def Sig.takeUp : Sig → Option Nat
  | .P => none
  | .L => some 550
  | .A => some 550
  | .B => some 550
  | .H => some 1100
  | .F => some 1600

/-- L, B, H and F are charge-only; P and A are data-compatible (R1). -/
def Sig.chargeOnly : Sig → Bool
  | .P => false
  | .L => true
  | .A => false
  | .B => true
  | .H => true
  | .F => true

/-- The base every enabled port holds, in mA (R119). -/
def baseGrant : Nat := 500

/-- The switch is on exactly in POWERING, IDLE, OCCUPIED and HOLD (R16). -/
def PortState.isOn : PortState → Bool
  | .disabled => false
  | .powering => true
  | .idle => true
  | .occupied => true
  | .hold => true
  | .fault => false
  | .recovery => false
  | .quarantined => false

/-- What a data-line tap is held at (R3): released, a divider level, joined to the other tap, or the reply level. -/
inductive Tap where
  | released | divider20 | divider27 | bridged | reply060
deriving DecidableEq, Repr

/-- The condition of DAn under a presented condition (R3). -/
def tapA : Option Sig → Tap
  | none => .released
  | some .P => .released
  | some .A => .released
  | some .L => .divider20
  | some .B => .bridged
  | some .H => .divider20
  | some .F => .divider27

/-- The condition of DBn under a presented condition and the probe detector (R3): the reply level is driven while A is
presented and the detector is REPLYING. -/
def tapB : Option Sig → Detector → Tap
  | none, _ => .released
  | some .P, _ => .released
  | some .A, d => if d = .replying then .reply060 else .released
  | some .L, _ => .divider20
  | some .B, _ => .bridged
  | some .H, _ => .divider27
  | some .F, _ => .divider27

/-- The level of a port's first tap. -/
def Port.daTap (q : Port) : Tap := tapA q.presented

/-- The level of a port's second tap. -/
def Port.dbTap (q : Port) : Tap := tapB q.presented q.detector

/-- PENn is active exactly while the switch is on (R16). -/
def Port.pen (q : Port) : Bool := q.switchOn

end Sys2Proof.Machine
end

