-- ==== Sys2Proof/Machine/Ops.lean ====
section
/-! DEFINITION. The shared operations: access to a port, its session, its grant; the nominal durations; the lines (R2 to
R13); the response slot (R193, R194). -/

namespace Sys2Proof.Machine

/-- A port unit. -/
def State.port (s : State) (p : PortId) : Port := s.ports[p.val]

/-- A port unit replaced. -/
def State.setPort (s : State) (p : PortId) (q : Port) : State :=
  { s with ports := s.ports.set p.val q }

/-- A port unit changed. -/
def State.modPort (s : State) (p : PortId) (f : Port → Port) : State := s.setPort p (f (s.port p))

/-- The session of a port unit changed, if it has one. -/
def State.modSession (s : State) (p : PortId) (f : Session → Session) : State :=
  s.modPort p fun q => { q with session := q.session.map f }

/-- The port's timers changed. -/
def State.modTimers (s : State) (p : PortId) (f : Timers → Timers) : State :=
  s.modPort p fun q => { q with timers := f q.timers }

/-- The port's pins changed. -/
def State.modPins (s : State) (p : PortId) (f : Pins → Pins) : State :=
  s.modPort p fun q => { q with pins := f q.pins }

/-- The state of a port. -/
def State.setPortState (s : State) (p : PortId) (st : PortState) : State :=
  s.modPort p fun q => { q with state := st }

/-- The port's grant, held by the budget arbiter (R118). -/
def State.grant (s : State) (p : PortId) : Nat := s.budget.grants[p.val]

/-- The port's grant replaced. -/
def State.setGrant (s : State) (p : PortId) (mA : Nat) : State :=
  { s with budget := { s.budget with grants := s.budget.grants.set p.val mA } }

/-- The port is in the victim set of the pending shed (R118). -/
def State.victim (s : State) (p : PortId) : Bool := s.budget.victims[p.val]

/-- The port's session phase, if it has a session in one. -/
def State.phase (s : State) (p : PortId) : Option Phase := (s.port p).session.bind (·.phase)

/-- The port's held phase. -/
def State.heldPhase (s : State) (p : PortId) : Option Phase := (s.port p).session.bind (·.held)

/-- All ports in ascending order. -/
def allPorts : List PortId := List.finRange 8

/-- All slots in ascending order. -/
def allSlots : List SlotId := List.finRange 48

/-! ### Durations, in steps of 5 ms -/

/-- A number of seconds in steps of 5 ms. -/
def seconds (n : Nat) : Nat := 200 * n

/-- The settle, 100 ms (R28). -/
def settleTime : Nat := 20

/-- The probe timer, 40 ms (R6). -/
def probeTime : Nat := 8

/-- The re-present timer, 250 ms (R9). -/
def rePresentTime : Nat := 50

/-- The cool-down, 2 s (R143). -/
def coolDownTime : Nat := 400

/-- The hold window, code times 0.5 s (R31). -/
def holdTime (code : Nat) : Nat := 100 * code

/-- The toggle-off, 200 ms plus 20 ms times the code (R151). -/
def toggleOffTime (code : Nat) : Nat := 40 + 4 * code

/-- The link timeout of a code: off for 0, else 200 ms doubled for each further code (R148). -/
def linkTime : Nat → Option Nat
  | 0 => none
  | n + 1 => some (40 * 2 ^ n)

/-- A time left in units of 100 ms, rounded up (R139, R159). -/
def hundredMs (left : Nat) : Nat := (left + 19) / 20

/-! ### The lines -/

/-- A session is suspended by link recovery: neither in a phase nor held (R38). -/
def Session.suspended (x : Session) : Bool := x.phase.isNone && x.held.isNone

/-- The session's presented signature follows the port's presented condition, except while suspended (R22). -/
def Session.follow (c : Option Sig) (x : Session) : Session :=
  if x.suspended then x else { x with presented := c }

/-- The presented condition becomes neutral: any presentation of A ends, and the probe detector with it (R7). -/
def Port.goNeutral (q : Port) : Port :=
  { q with
    presented := none
    detector := .off
    timers := { q.timers with probe := none }
    session := q.session.map (·.follow none) }

/-- The presented condition becomes a letter, no re-present being in flight from then on. For A the probe detector starts:
TIMING when DAn is in the probe band, WATCHING otherwise (R6). -/
def Port.present (q : Port) (c : Sig) : Port :=
  { q with
    presented := some c
    rePresent := none
    detector := if c = .A then (if q.pins.probeBand then .timing else .watching) else .off
    timers := { q.timers with probe := if c = .A && q.pins.probeBand then some probeTime else none }
    session := q.session.map (·.follow (some c)) }

/-- The switch turns off: PENn inactive, neutral lines, any re-present cancelled, detector OFF, overcurrent mark clear (R2,
R7, R13, R16, R142). -/
def Port.switchOff (q : Port) : Port :=
  { q with
    switchOn := false
    presented := none
    rePresent := none
    detector := .off
    timers := { q.timers with probe := none }
    overcurrent := false }

/-- The hub holds the port's lines and the target may not be presented with it (R4). -/
def Port.hubTurns (q : Port) (target : Sig) : Bool := target.chargeOnly && q.pins.hen

/-- The target a request asks for in the end: P in place of a charge-only one while HENn is active (R4, R10). -/
def Port.turned (q : Port) (target : Sig) : Sig := if q.hubTurns target then .P else target

/-- A request toward this target completes in its own event: no re-present is in flight and the target is already presented
(R10, third row). -/
def Port.atOnce (q : Port) (target : Sig) : Bool :=
  q.rePresent.isNone && q.presented == some (q.turned target)

/-- A re-present that starts: the lines go neutral, the timer starts at 250 ms, the letter presented until now is recorded
(R10, first and second rows). -/
def Port.startRePresent (q : Port) (target : Sig) (who : Requester) (hub : Bool) : Port :=
  { q.goNeutral with rePresent := some ⟨target, rePresentTime, hub, who, q.presented⟩ }

/-- A re-present in flight takes a new target and requester; its timer runs on, a set hub-retarget mark stays (R11). -/
def RePresent.retarget (r : RePresent) (target : Sig) (who : Requester) (hub : Bool) : RePresent :=
  { r with target := target, requester := who, hubRetarget := r.hubRetarget || hub }

/-- A request for a re-present that does not complete at once starts one from the presented letter or from neutral, or
retargets the one in flight (R10, R11). With the switch off it is refused. -/
def Port.requestRePresent (q : Port) (target : Sig) (who : Requester) : Port :=
  if q.switchOn then
    match q.rePresent with
    | some r => { q with rePresent := some (r.retarget (q.turned target) who (q.hubTurns target)) }
    | none => q.startRePresent (q.turned target) who (q.hubTurns target)
  else q

/-- The session goes to REPRESENTING, its target the re-present's (R26, R11). -/
def Port.sessionRepresents (q : Port) : Port :=
  { q with session := q.session.map fun x =>
      { x with phase := some .representing, target := q.rePresent.map (·.target) } }

/-- A re-present toward a signature for the session's own work: the request and the phase (R26, R49, R52). -/
def State.representFor (s : State) (p : PortId) (target : Sig) (who : Requester) : State :=
  s.modPort p fun q => (q.requestRePresent target who).sessionRepresents

/-- The link timer starts with the policy's timeout when the code is not 0 (R148). -/
def Port.startLink (q : Port) : Port :=
  { q with timers := { q.timers with link := linkTime q.policy.linkTimeout } }

/-! ### The host port -/

/-- The bus address that a level of ADDR selects: 5Ch when low, 5Dh when high (R186). -/
def busAddress (addr : Bool) : BitVec 7 := if addr then 0x5D else 0x5C

/-- A response in the slot; the frame that asked for it has been taken, and its transaction has ended (R190, R193, R194). -/
def State.respond (s : State) (st : Status) (tag code : Byte) (data : List Byte) : State :=
  { s with host := { s.host with
      response := some ⟨st, tag, code, data⟩
      frame := none
      bus := .notAddressed } }

/-- A refused command writes its status alone (R196). -/
def State.refuse (s : State) (st : Status) (tag code : Byte) : State := s.respond st tag code []

/-- A host command is taken. While RST# is held low the part acknowledges no address and takes no frame (R186, log 7). -/
def State.taking (s : State) (f : State → State) : State := if s.host.inReset then s else f s

/-- The outcome of every command: a next state. -/
abbrev Result := Host.Outcome State Fault Refusal

end Sys2Proof.Machine
end

