-- ==== Sys2Proof/Machine/Budget.lean ====
section
/-! DEFINITION. The budget arbiter: headroom, upgrades, the wait queue and its service, releases, sheds' accounting
(spec/06, R118 to R138). -/

namespace Sys2Proof.Machine

/-- The sum of all port grants (R119). -/
def State.sumGrants (s : State) : Nat :=
  s.grant 0 + s.grant 1 + s.grant 2 + s.grant 3 + s.grant 4 + s.grant 5 + s.grant 6 + s.grant 7

/-- The headroom: the total in effect less the sum of all grants (R120). -/
def State.headroom (s : State) : Nat := s.budget.total - s.sumGrants

/-- The need of a step toward a signature: its offered current less the port's grant (R123, R129). -/
def State.need (s : State) (p : PortId) (sig : Sig) : Nat := sig.offered - s.grant p

/-- The budget arbiter's queue replaced. -/
def State.setQueue (s : State) (q : List QueueEntry) : State :=
  { s with budget := { s.budget with queue := q } }

/-- The port has an entry in the queue. -/
def State.queued (s : State) (p : PortId) : Bool := s.budget.queue.any (·.port == p)

/-- A queue entry is withdrawn with its timer; the others keep their order and timers (R132). -/
def State.withdraw (s : State) (p : PortId) : State :=
  s.setQueue (s.budget.queue.filter (·.port ≠ p))

/-- The head of the queue is granted: its grant rises, it leaves the queue, GRANT is raised, and its port unit requests a
re-present toward the signature (R129 step 2, R52). -/
def State.grantHead (s : State) (e : QueueEntry) (rest : List QueueEntry) : State :=
  (((s.setQueue rest).setGrant e.port e.sig.offered).raisePort e.port .grant).representFor e.port e.sig .sequencer

/-- Service of the queue from its head, for at most a number of entries: it stops at a head whose need exceeds the headroom
(R129). -/
def State.serve : Nat → State → State
  | 0, s => s
  | n + 1, s =>
    match s.budget.queue with
    | [] => s
    | e :: rest => if s.need e.port e.sig ≤ s.headroom then State.serve n (s.grantHead e rest) else s

/-- The whole queue served (R129). -/
def State.serveQueue (s : State) : State := State.serve s.budget.queue.length s

/-- The pending total is applied, BUDGET_APPLIED raised, the queue served (R138). -/
def State.completeChange (s : State) (total : Nat) : State :=
  State.serveQueue ({ s with budget := { s.budget with total := total, pendingTotal := none } }.raiseDevice .budgetApplied)

/-- The victim set is empty. -/
def State.noVictims (s : State) : Bool := s.budget.victims.all (! ·)

/-- The end of a release event: with no change pending the queue is served; with one pending and no victim left the change
completes (R128, R138). -/
def State.afterRelease (s : State) : State :=
  match s.budget.pendingTotal with
  | none => s.serveQueue
  | some total => if s.noVictims then s.completeChange total else s

/-- A port leaves the victim set (R137). -/
def State.leaveVictims (s : State) (p : PortId) : State :=
  { s with budget := { s.budget with victims := s.budget.victims.set p.val false } }

/-- A grant becomes a lower value. When it falls to 500 mA or 0 the port leaves the victim set (R125, R137). Its release
event ends with `afterRelease`. -/
def State.fallGrant (s : State) (p : PortId) (mA : Nat) : State :=
  if mA ≤ baseGrant then (s.setGrant p mA).leaveVictims p else s.setGrant p mA

/-- An upgrade request is granted at once: the queue is empty, no change is pending and the need fits the headroom (R123). -/
def State.upgradeFits (s : State) (p : PortId) (sig : Sig) : Bool :=
  s.budget.queue.isEmpty && s.budget.pendingTotal.isNone && decide (s.need p sig ≤ s.headroom)

/-- A port joins the tail of the queue with a fresh wait timer, and WAIT is raised (R127). -/
def State.joinQueue (s : State) (p : PortId) (sig : Sig) : State :=
  (s.setQueue (s.budget.queue ++ [⟨p, sig, seconds s.budget.waitLimit⟩])).raisePort p .wait

/-- The end of a re-present is reported: a grant above the newly presented signature's offer falls to it, which is a release
event (R12 step 3, R124). -/
def State.reportPresented (s : State) (p : PortId) (sig : Sig) : State :=
  if sig.offered < s.grant p then (s.fallGrant p sig.offered).afterRelease else s

/-! ### The choice of victims -/

/-- What a port counts for in the choice: a chosen port 500 mA, another its grant (R134). -/
def State.countedGrant (s : State) (chosen : List PortId) (p : PortId) : Nat :=
  if p ∈ chosen then baseGrant else s.grant p

/-- The sum of all grants with the chosen ports counted at 500 mA (R134). -/
def State.countedSum (s : State) (chosen : List PortId) : Nat :=
  (allPorts.map (s.countedGrant chosen)).sum

/-- The first port goes before the second as a victim: the lower priority, then the higher grant, then the higher number
(R134). -/
def State.victimBefore (s : State) (p q : PortId) : Bool :=
  let pp := (s.port p).policy.priority
  let pq := (s.port q).policy.priority
  decide (pp < pq) ||
    (decide (pp = pq) && (decide (s.grant q < s.grant p) || (decide (s.grant q = s.grant p) && decide (q < p))))

/-- The next victim among the ports not chosen whose grant exceeds 500 mA (R134). -/
def State.nextVictim (s : State) (chosen : List PortId) : Option PortId :=
  (allPorts.filter fun p => decide (p ∉ chosen) && decide (baseGrant < s.grant p)).foldl
    (fun best p =>
      match best with
      | none => some p
      | some b => if s.victimBefore p b then some p else some b)
    none

/-- Victims chosen one at a time until the counted sum fits the pending total, for at most a number of ports (R134). -/
def State.chooseVictims (s : State) (total : Nat) : Nat → List PortId → List PortId
  | 0, chosen => chosen
  | n + 1, chosen =>
    if s.countedSum chosen ≤ total then chosen
    else
      match s.nextVictim chosen with
      | none => chosen
      | some p => State.chooseVictims s total n (chosen ++ [p])

end Sys2Proof.Machine
end

