-- ==== Sys2Proof/Machine/Memory.lean ====
section
/-! DEFINITION. The Profile Memory: derived values, folding, the recency list, insertion and eviction, and its requests from
the port units (spec/04, R70 to R89). -/

namespace Sys2Proof.Machine

/-! ### Derived values -/

/-- The counts of a signature; P has none (R70). -/
def Tallies.get (t : Tallies) : Sig → Tally
  | .P => ⟨0, 0⟩
  | .L => t.l
  | .A => t.a
  | .B => t.b
  | .H => t.h
  | .F => t.f

/-- The counts of a signature changed; P has none. -/
def Tallies.modify (t : Tallies) (f : Tally → Tally) : Sig → Tallies
  | .P => t
  | .L => { t with l := f t.l }
  | .A => { t with a := f t.a }
  | .B => { t with b := f t.b }
  | .H => { t with h := f t.h }
  | .F => { t with f := f t.f }

/-- Both counts of a signature halved, each rounded down (R77, R79). -/
def Tally.halve (t : Tally) : Tally := ⟨t.acc / 2, t.rej / 2⟩

/-- Every count of an entry halved (R79). -/
def Tallies.halve (t : Tallies) : Tallies := ⟨t.l.halve, t.a.halve, t.b.halve, t.h.halve, t.f.halve⟩

/-- All ten counts 0 (R72). -/
def Tallies.zero : Tallies := ⟨⟨0, 0⟩, ⟨0, 0⟩, ⟨0, 0⟩, ⟨0, 0⟩, ⟨0, 0⟩⟩

/-- The signatures with tallies, from the highest rank down (R1, R74). -/
def judgedSigs : List Sig := [.F, .H, .B, .A, .L]

/-- The preferred signature: the highest in rank whose accepted count exceeds its rejected count (R74). -/
def Entry.preferred (e : Entry) : Option Sig :=
  judgedSigs.find? fun s => decide ((e.tallies.get s).rej < (e.tallies.get s).acc)

/-- The state of an entry under a settle threshold: the first row of R75 that fits. -/
def Entry.state (threshold : Nat) (e : Entry) : EntryState :=
  if e.pinned.isSome then .pinned
  else if e.tallies = Tallies.zero then .new
  else
    match e.preferred with
    | some p =>
      if threshold ≤ (e.tallies.get p).acc - (e.tallies.get p).rej then .settled else .tentative
    | none => .tentative

/-! ### Slots -/

/-- The entry in a slot, if the slot is not VACANT. -/
def ProfileMemory.entry (m : ProfileMemory) (n : SlotId) : Option Entry := m.slots[n.val]

/-- A slot replaced. -/
def ProfileMemory.setSlot (m : ProfileMemory) (n : SlotId) (e : Option Entry) : ProfileMemory :=
  { m with slots := m.slots.set n.val e }

/-- The entry of a slot changed, if it holds one. -/
def ProfileMemory.modEntry (m : ProfileMemory) (n : SlotId) (f : Entry → Entry) : ProfileMemory :=
  m.setSlot n ((m.entry n).map f)

/-- The entry holds this key. -/
def Entry.hasKey (vendor product : Half) (e : Entry) : Bool := e.vendor == vendor && e.product == product

/-- The slot that holds a key; at most one does (R71). -/
def ProfileMemory.find (m : ProfileMemory) (vendor product : Half) : Option SlotId :=
  allSlots.find? fun n => (m.entry n).any (·.hasKey vendor product)

/-- The lowest-numbered VACANT slot (R83). -/
def ProfileMemory.vacant (m : ProfileMemory) : Option SlotId :=
  allSlots.find? fun n => (m.entry n).isNone

/-- The number of non-vacant entries. -/
def ProfileMemory.entryCount (m : ProfileMemory) : Nat :=
  (allSlots.filter fun n => (m.entry n).isSome).length

/-! ### The recency list -/

/-- The recency list changes: the order count goes up by one (R82). -/
def ProfileMemory.setRecency (m : ProfileMemory) (order : List SlotId) : ProfileMemory :=
  { m with recency := order, orderCount := m.orderCount + 1 }

/-- An entry moves to the front; the order count moves only when the list does (R81, R82). -/
def ProfileMemory.toFront (m : ProfileMemory) (n : SlotId) : ProfileMemory :=
  let order := n :: m.recency.filter (· ≠ n)
  if order = m.recency then m else m.setRecency order

/-! ### Folding -/

/-- One verdict added to a signature's counts, both halved first when the count it names is 15 (R77). -/
def Tally.fold (accepted : Bool) (t : Tally) : Tally :=
  if accepted then
    if t.acc = 15 then ⟨t.acc / 2 + 1, t.rej / 2⟩ else ⟨t.acc + 1, t.rej⟩
  else
    if t.rej = 15 then ⟨t.acc / 2, t.rej / 2 + 1⟩ else ⟨t.acc, t.rej + 1⟩

/-- A fold request: the tallies of the entry take one verdict and the entry moves to the front (R77). -/
def ProfileMemory.fold (m : ProfileMemory) (n : SlotId) (sig : Sig) (accepted : Bool) : ProfileMemory :=
  if (m.entry n).isSome then
    (m.modEntry n fun e => { e with tallies := e.tallies.modify (Tally.fold accepted) sig }).toFront n
  else m

/-- A release change: every count halved and the release carried taken, when it differs (R79). -/
def Entry.releaseChange (release : Half) (e : Entry) : Entry :=
  if e.release = release then e else { e with release := release, tallies := e.tallies.halve }

/-- The release carried differs from the one the slot's entry holds (R79). -/
def ProfileMemory.releaseDiffers (m : ProfileMemory) (n : SlotId) (release : Half) : Bool :=
  (m.entry n).any fun e => e.release != release

/-! ### Insertion and eviction -/

/-- The entry that an eviction would take: from the tail, the first with no pin and no users (R84). -/
def ProfileMemory.evictable (m : ProfileMemory) : Option SlotId :=
  m.recency.reverse.find? fun n => (m.entry n).any fun e => e.pinned.isNone && e.users == 0

/-- Where an insertion without a named slot goes (R83, R85). -/
inductive Room where
  | vacant (n : SlotId)
  | evict (n : SlotId)
  | full
deriving DecidableEq, Repr

/-- The slot an insertion takes: the lowest VACANT one, else the one an eviction vacates, else none (R83 to R85). -/
def ProfileMemory.room (m : ProfileMemory) : Room :=
  match m.vacant with
  | some n => .vacant n
  | none =>
    match m.evictable with
    | some n => .evict n
    | none => .full

/-- A new entry put into a slot at the front of the recency list; whatever the slot held leaves the list (R81, R83). -/
def ProfileMemory.insertFront (m : ProfileMemory) (n : SlotId) (e : Entry) : ProfileMemory :=
  (m.setSlot n (some e)).setRecency (n :: m.recency.filter (· ≠ n))

/-- A new entry put into a slot at the tail of the recency list; whatever the slot held leaves the list (R81, R93). -/
def ProfileMemory.insertTail (m : ProfileMemory) (n : SlotId) (e : Entry) : ProfileMemory :=
  (m.setSlot n (some e)).setRecency (m.recency.filter (· ≠ n) ++ [n])

/-- A slot made VACANT, leaving the recency list (R80, R94). -/
def ProfileMemory.vacate (m : ProfileMemory) (n : SlotId) : ProfileMemory :=
  (m.setSlot n none).setRecency (m.recency.filter (· ≠ n))

/-! ### Requests from the port units -/

/-- An entry of the state's Profile Memory. -/
def State.entry (s : State) (n : SlotId) : Option Entry := s.memory.entry n

/-- The Profile Memory changed. -/
def State.modMemory (s : State) (f : ProfileMemory → ProfileMemory) : State :=
  { s with memory := f s.memory }

/-- The opening entry of a bind request that inserts (R83). -/
def Entry.fresh (vendor product release : Half) : Entry :=
  { vendor := vendor, product := product, release := release, pinned := none, tallies := Tallies.zero, users := 1 }

/-- The answers to a bind request (R87). -/
inductive BindAnswer where
  | found (n : SlotId)
  | inserted (n : SlotId)
  | full
deriving DecidableEq, Repr

/-- The answer that a bind request for a key would get (R87). -/
def ProfileMemory.bindAnswer (m : ProfileMemory) (vendor product : Half) : BindAnswer :=
  match m.find vendor product with
  | some n => .found n
  | none =>
    match m.room with
    | .vacant n => .inserted n
    | .evict n => .inserted n
    | .full => .full

/-- A bind request's effect, with PM_EVICT for an eviction and PM_FULL for a failed insertion (R84 to R87). The release change
of R79 is applied to a PINNED entry too, at a rebind as at any bind (log 30). -/
def State.bindRequest (s : State) (vendor product release : Half) : State :=
  match s.memory.find vendor product with
  | some n =>
    s.modMemory fun m =>
      (m.modEntry n fun e => { e.releaseChange release with users := e.users + 1 }).toFront n
  | none =>
    match s.memory.room with
    | .vacant n => s.modMemory (·.insertFront n (Entry.fresh vendor product release))
    | .evict n => (s.modMemory (·.insertFront n (Entry.fresh vendor product release))).raiseDevice .pmEvict
    | .full => s.raiseDevice .pmFull

/-- A confirm request: the release change if any, and the entry to the front (R87). -/
def State.confirmRequest (s : State) (n : SlotId) (release : Half) : State :=
  if (s.entry n).isSome then
    s.modMemory fun m => (m.modEntry n (Entry.releaseChange release)).toFront n
  else s

/-- An unbind request: the user count falls by one (R88). -/
def State.unbindRequest (s : State) (n : SlotId) : State :=
  s.modMemory (·.modEntry n fun e => { e with users := e.users - 1 })

/-- A fold request from a port unit (R77). -/
def State.foldRequest (s : State) (n : SlotId) (sig : Sig) (accepted : Bool) : State :=
  s.modMemory (·.fold n sig accepted)

end Sys2Proof.Machine
end

