-- ==== Sys2Proof/Machine/Trials.lean ====
section
/-! DEFINITION. The trial sequencer: computing and walking the sequence, evaluation windows, verdicts, STEADY, computation
calls, and what a shed does to a port's trials (spec/03, R43 to R68; spec/05, R110 to R113). -/

namespace Sys2Proof.Machine

/-! ### Computing the sequence -/

/-- The candidates: the session's trial list in CHARGE mode, only A of it in DATA mode (R44). -/
def candidates (policy : SessionPolicy) : Mode → List Sig
  | .charge => policy.trialList
  | .data => policy.trialList.filter (· = .A)

/-- A pinned signature passes the session's mode and maximum (R45). -/
def pinPasses (policy : SessionPolicy) (mode : Mode) (q : Sig) : Bool :=
  (mode = .charge || !q.chargeOnly) && decide (q.rank ≤ policy.maxSig.rank)

/-- EVALUATE steps for a list of signatures. -/
def evaluateSteps (sigs : List Sig) : List TrialStep := sigs.map fun s => ⟨s, .evaluate⟩

/-- A preferred signature first when it is a candidate. -/
def leading (p : Sig) (cands : List Sig) : List Sig := if p ∈ cands then [p] else []

/-- The candidates ordered by the bound entry, `none` for an unbound session (R45). -/
def orderedSteps (policy : SessionPolicy) (mode : Mode) (threshold : Nat) (entry : Option Entry) : List TrialStep :=
  let cands := candidates policy mode
  match entry with
  | none => evaluateSteps cands
  | some e =>
    match e.state threshold with
    | .pinned =>
      match e.pinned with
      | some q => if pinPasses policy mode q then [⟨q, .present⟩] else []
      | none => []
    | .settled =>
      match e.preferred with
      | some p => evaluateSteps (leading p cands ++ cands.filter fun c => decide (c.rank < p.rank))
      | none => evaluateSteps cands
    | .tentative =>
      match e.preferred with
      | some p => evaluateSteps (leading p cands ++ cands.filter fun c => decide (c ≠ p))
      | none => evaluateSteps cands
    | .new => evaluateSteps cands

/-- The verdict a list holds for a signature. -/
def verdictIn (list : List VerdictEntry) (s : Sig) : Option Verdict :=
  (list.find? fun v => v.sig == s).map (·.verdict)

/-- The list up to and with its first PRESENT step (R46, stage 4). -/
def cutAfterPresent : List TrialStep → List TrialStep
  | [] => []
  | st :: rest => if st.kind = .present then [st] else st :: cutAfterPresent rest

/-- A step under the session's verdicts: PRESENT for an accepted signature, and for an inconclusive one outside Retry Trials
(R46, stages 2 and 3). -/
def stepUnder (retry : Bool) (list : List VerdictEntry) (st : TrialStep) : TrialStep :=
  match verdictIn list st.sig with
  | some .accepted => { st with kind := .present }
  | some .inconclusive => if retry then st else { st with kind := .present }
  | some .rejected => st
  | none => st

/-- The effect of the session's own verdicts on the ordered sequence (R46). -/
def underVerdicts (retry : Bool) (list : List VerdictEntry) (steps : List TrialStep) : List TrialStep :=
  cutAfterPresent
    ((steps.filter fun st => verdictIn list st.sig ≠ some .rejected).map (stepUnder retry list))

/-- The mode sampled from HENn (R25). -/
def sampledMode (hen : Bool) : Mode := if hen then .data else .charge

/-- The entry a session is bound to. -/
def State.boundEntry (s : State) (x : Session) : Option Entry := x.boundSlot.bind s.entry

/-- The steps a computation gives (R44 to R46). -/
def State.computedSteps (s : State) (retry : Bool) (mode : Mode) (x : Session) : List TrialStep :=
  underVerdicts retry x.verdicts (orderedSteps x.policy mode s.memory.threshold (s.boundEntry x))

/-- A computation: the mode is sampled, the remaining steps are built afresh, the recompute-due mark clears (R47, R48). -/
def State.compute (s : State) (p : PortId) (retry : Bool) : State :=
  s.modPort p fun q =>
    { q with session := q.session.map fun x =>
        { x with
          mode := sampledMode q.pins.hen
          remaining := s.computedSteps retry (sampledMode q.pins.hen) x
          recomputeDue := false } }

/-! ### Evaluation windows and STEADY -/

/-- An evaluation window starts (R54): phase EVALUATING, the window timer, cleared accumulators, probe-seen set again when
the detector is REPLYING (R8). -/
def State.startWindow (s : State) (p : PortId) : State :=
  s.modPort p fun q =>
    { q with
      timers := { q.timers with evaluation := some (seconds q.policy.evaluationWindow) }
      session := q.session.map fun x =>
        { x with
          phase := some .evaluating
          target := none
          sum := 0
          count := 0
          probeSeen := q.detector = .replying } }

/-- The walk is over (R53). -/
def Session.endWalk (x : Session) : Session := { x with remaining := [], current := none, target := none }

/-- Entry to STEADY in OCCUPIED (R53). -/
def State.enterSteady (s : State) (p : PortId) : State :=
  (s.modPort p fun q =>
    { q with
      tripCount := 0
      session := q.session.map fun x => { x.endWalk with phase := some .steady } }).raisePort p .steady

/-- Entry to STEADY in HOLD, as a held phase (R32). -/
def State.enterSteadyHeld (s : State) (p : PortId) : State :=
  (s.modPort p fun q =>
    { q with
      tripCount := 0
      session := q.session.map fun x => { x.endWalk with held := some .steady } }).raisePort p .steady

/-! ### Walking the sequence -/

/-- What a step's presented signature leads to: a window for EVALUATE, STEADY for PRESENT (R49). -/
def State.stepReached (s : State) (p : PortId) : StepKind → State
  | .evaluate => s.startWindow p
  | .present => s.enterSteady p

/-- The re-present toward a step's signature, which completes in the same event, with steps 3 and 4 of R12, when it is
already presented (R10, R49). -/
def State.towardStep (s : State) (p : PortId) (st : TrialStep) : State :=
  if (s.port p).atOnce st.sig then (s.reportPresented p st.sig).stepReached p st.kind
  else s.representFor p st.sig .sequencer

/-- The step becomes the current one, the rest remain. -/
def State.setCurrent (s : State) (p : PortId) (st : TrialStep) (rest : List TrialStep) : State :=
  s.modSession p fun x => { x with current := some st, remaining := rest }

/-- The head of the remaining steps is taken (R49): within the grant, with an upgrade granted at once, or into the queue. -/
def State.takeHead (s : State) (p : PortId) (st : TrialStep) (rest : List TrialStep) : State :=
  let s1 := s.setCurrent p st rest
  if st.sig.offered ≤ s1.grant p then s1.towardStep p st
  else if s1.upgradeFits p st.sig then (s1.setGrant p st.sig.offered).towardStep p st
  else
    (s1.joinQueue p st.sig).modSession p fun x =>
      { x with phase := some .waitingBudget, target := some st.sig }

/-- The sequence is exhausted: the sequencer asks for P (R50). -/
def State.exhaust (s : State) (p : PortId) : State :=
  let s1 := s.modSession p fun x => { x with remaining := [], current := none }
  if (s1.port p).atOnce .P then (s1.reportPresented p .P).enterSteady p else s1.representFor p .P .sequencer

/-- The first of the remaining steps, or exhaustion (R49, R50), without the check of HENn. -/
def State.walk (s : State) (p : PortId) : State :=
  match (s.port p).session with
  | none => s
  | some x =>
    match x.remaining with
    | [] => s.exhaust p
    | st :: rest => s.takeHead p st rest

/-- The next step would present a charge-only signature while HENn is active (R49). -/
def Port.headBlocked (q : Port) : Bool :=
  match q.session with
  | none => false
  | some x =>
    match x.remaining with
    | [] => false
    | st :: _ => q.hubTurns st.sig

/-- Taking a step (R49): a charge-only head under an active HENn sends the session through a computation first. -/
def State.takeStep (s : State) (p : PortId) : State :=
  if (s.port p).headBlocked then (s.compute p false).walk p else s.walk p

/-- A computation followed by its first step (R47). -/
def State.recompute (s : State) (p : PortId) : State := (s.compute p false).takeStep p

/-- The session's recompute-due mark. -/
def State.recomputeDue (s : State) (p : PortId) : Bool := (s.port p).session.any (·.recomputeDue)

/-- The recompute-due mark set (R47). -/
def State.markDue (s : State) (p : PortId) : State := s.modSession p fun x => { x with recomputeDue := true }

/-- The step after a refusal or a skip: the next one, or the first of a fresh computation when the mark is set (R48). -/
def State.nextStep (s : State) (p : PortId) : State :=
  if s.recomputeDue p then s.recompute p else s.takeStep p

/-- The re-aim test on a computed sequence (R68): a pinned signature that differs from the presented one, or a first step of
a SETTLED entry above it. -/
def State.reAimPasses (s : State) (p : PortId) : Bool :=
  match (s.port p).session with
  | none => false
  | some x =>
    match s.boundEntry x, x.remaining with
    | some e, st :: _ =>
      match e.state s.memory.threshold with
      | .pinned => e.pinned != x.presented
      | .settled => x.presented.any fun c => decide (c.rank < st.sig.rank)
      | .tentative => false
      | .new => false
    | _, _ => false

/-- A computation in STEADY for a binding or a pin: made and put to the re-aim test unless the shed flag is set; a sequence
that fails the test is discarded (R68, R110). -/
def State.reAim (s : State) (p : PortId) : State :=
  if (s.port p).session.any (·.shed) then s
  else
    let s1 := s.compute p false
    if s1.reAimPasses p then s1.takeStep p
    else s1.modSession p fun x => { x with remaining := [] }

/-- STEADY entered at a step's outcome in OCCUPIED, where a set mark is consumed by the re-aim test (R48, R112). -/
def State.steadyOutcome (s : State) (p : PortId) : State :=
  let s1 := s.enterSteady p
  if s.recomputeDue p then s1.reAim p else s1

/-! ### Verdicts -/

/-- The mean of a window, rounded down to a multiple of 10 mA; 0 with no reading (R56). -/
def windowMean (sum count : Nat) : Nat := if count = 0 then 0 else sum / count / 10 * 10

/-- The verdict at window expiry: the first row of R56 that fits. -/
def verdictFor (sig : Sig) (mean : Nat) (probeSeen : Bool) : Verdict :=
  if sig = .A && !probeSeen then .rejected
  else if mean < 100 then .rejected
  else
    match sig.takeUp with
    | some level => if level < mean then .accepted else .inconclusive
    | none => .inconclusive

/-- The signature under evaluation: the current step's (R43); the presented one should no step be held (log 19). -/
def Session.judged (x : Session) : Option Sig :=
  match x.current with
  | some st => some st.sig
  | none => x.presented

/-- A verdict in time order, any earlier entry of the same signature removed (R59). -/
def recordIn (list : List VerdictEntry) (v : VerdictEntry) : List VerdictEntry :=
  list.filter (fun w => w.sig ≠ v.sig) ++ [v]

/-- The verdict is one that an entry counts (R60). -/
def Verdict.counts : Verdict → Bool
  | .accepted => true
  | .rejected => true
  | .inconclusive => false

/-- The session is bound to an entry that is not PINNED (R60). -/
def State.learns (s : State) (x : Session) : Bool := (s.boundEntry x).any fun e => e.pinned.isNone

/-- A verdict recorded (R59) and folded by the session's binding (R60). -/
def State.recordVerdict (s : State) (p : PortId) (sig : Sig) (v : Verdict) : State :=
  match (s.port p).session with
  | none => s
  | some x =>
    let s1 := s.modSession p fun y =>
      { y with verdicts := recordIn y.verdicts ⟨sig, v, v.counts && x.boundSlot.isSome⟩ }
    match x.boundSlot with
    | none => s1
    | some n => if v.counts && s.learns x then s1.foldRequest n sig (v = .accepted) else s1

/-- What a window's verdict leads to (R61, R48). -/
def State.followVerdict (s : State) (p : PortId) : Verdict → State
  | .accepted => s.steadyOutcome p
  | .inconclusive => s.steadyOutcome p
  | .rejected => s.nextStep p

/-- The end of an evaluation window: mean, verdict, record, fold, VERDICT, and what follows (R56 to R61). -/
def State.judge (s : State) (p : PortId) (x : Session) (sig : Sig) : State :=
  let mean := windowMean x.sum x.count
  let v := verdictFor sig mean x.probeSeen
  let s1 := s.modSession p fun y => { y with lastMean := some mean }
  ((s1.recordVerdict p sig v).raisePort p .verdict).followVerdict p v

/-! ### Computation calls -/

/-- The requester of the re-present in flight. -/
def Port.requester (q : Port) : Option Requester := q.rePresent.map (·.requester)

/-- What a computation call does to a session (R110 to R113, R152). -/
inductive CallEffect where
  | nothing | mark | aim
deriving DecidableEq, Repr

/-- A computation call by the phase, in OCCUPIED (R110, R112). -/
def callInPhase (current : Bool) (who : Option Requester) : Option Phase → CallEffect
  | none => .nothing
  | some .settling => .nothing
  | some .identifying => .nothing
  | some .representing =>
    if current || who = some .sequencer || who = some .resumption then .mark else .nothing
  | some .evaluating => .mark
  | some .waitingBudget => .mark
  | some .steady => .aim

/-- A computation call by the held phase (R111). -/
def callInHold (current : Bool) (who : Option Requester) : Option Phase → CallEffect
  | none => .nothing
  | some .settling => .nothing
  | some .identifying => .nothing
  | some .representing => if current || who = some .sequencer then .mark else .nothing
  | some .evaluating => .mark
  | some .waitingBudget => .mark
  | some .steady => .nothing

/-- The effect of a computation call on a port's session (R110 to R113; R152 for a suspended one). -/
def Port.callEffect (q : Port) : CallEffect :=
  match q.session with
  | none => .nothing
  | some x =>
    match q.state with
    | .occupied => callInPhase x.current.isSome q.requester x.phase
    | .hold => callInHold x.current.isSome q.requester x.held
    | .recovery => .mark
    | .powering => .mark
    | .disabled => .nothing
    | .idle => .nothing
    | .fault => .nothing
    | .quarantined => .nothing

/-- A computation call (R110 to R113). -/
def State.computationCall (s : State) (p : PortId) : State :=
  match (s.port p).callEffect with
  | .nothing => s
  | .mark => s.markDue p
  | .aim => s.reAim p

/-! ### Sheds -/

/-- Accumulators cleared, probe-seen with them (R57). -/
def Session.clearAccumulators (x : Session) : Session := { x with sum := 0, count := 0, probeSeen := false }

/-- An evaluation under way or kept aside in HOLD is given up, its accumulators cleared (R57, R33, R135). -/
def Session.abandon (x : Session) : Session :=
  if x.phase = some .evaluating || x.held = some .evaluating then x.clearAccumulators else x

/-- A shed on the session: the evaluation abandoned, the steps and the mark discarded, the shed flag and trials-begun set
(R66). -/
def Session.shedNow (x : Session) : Session :=
  { x.abandon with remaining := [], current := none, recomputeDue := false, shed := true, trialsBegun := true }

/-- A session that heads for P under a shed in OCCUPIED: the timers of its phase stop, its queue entry is withdrawn, a
re-present toward P is requested with the shed as requester (R66, R137). -/
def State.shedOccupied (s : State) (p : PortId) : State :=
  let s1 := (s.withdraw p).modPort p fun q =>
    { q with
      timers := { q.timers with settle := none, identityWait := none, evaluation := none }
      session := q.session.map (·.shedNow) }
  if (s1.port p).atOnce .P then (s1.fallGrant p baseGrant).enterSteady p
  else s1.representFor p .P .shed

/-- A held session under a shed: the held phase becomes REPRESENTING toward P (R135). -/
def State.shedHeld (s : State) (p : PortId) : State :=
  let s1 := s.modSession p (·.shedNow)
  if (s1.port p).atOnce .P then (s1.fallGrant p baseGrant).enterSteadyHeld p
  else
    s1.modPort p fun q =>
      let q1 := q.requestRePresent .P .shed
      { q1 with session := q1.session.map fun x =>
          { x with held := some .representing, target := q1.rePresent.map (·.target) } }

/-- A suspended session under a shed: the grant falls at once and the resumption will head for P (R135, R151 step 5). A
recompute-due mark stays set, which is the model's choice (log 28). -/
def State.shedSuspended (s : State) (p : PortId) : State :=
  if (s.port p).session.isSome then
    (s.modSession p fun x => { x with shed := true, trialsBegun := true, presented := some .P }).fallGrant p baseGrant
  else s

/-- What a shed does to a chosen port, by its state (R135). -/
def State.shedPort (s : State) (p : PortId) : State :=
  match (s.port p).state with
  | .occupied => s.shedOccupied p
  | .hold => s.shedHeld p
  | .recovery => s.shedSuspended p
  | .powering => s.shedSuspended p
  | .idle => s
  | .disabled => s
  | .fault => s
  | .quarantined => s

/-- A port is chosen as a victim: SHED is raised and the shed acts (R134 step 3). -/
def State.shedVictim (s : State) (p : PortId) : State := (s.raisePort p .shed).shedPort p

/-- A set of ports as marks. -/
def victimMarks (chosen : List PortId) : Vector Bool 8 := Vector.ofFn fun p => decide (p ∈ chosen)

/-- The victims of a new total (R134 step 2). -/
def State.victimsFor (s : State) (total : Nat) : List PortId := s.chooseVictims total 8 []

/-- A shed begins: the pending total, the victims and what becomes of them, and the completion when all release at once (R134,
R138). -/
def State.startShed (s : State) (total : Nat) : State :=
  let chosen := s.victimsFor total
  let s1 := { s with budget := { s.budget with pendingTotal := some total, victims := victimMarks chosen } }
  (chosen.foldl State.shedVictim s1).afterRelease

/-- A new total no less than the grants is applied at once (R133). -/
def State.applyTotal (s : State) (total : Nat) : State :=
  State.serveQueue ({ s with budget := { s.budget with total := total } }.raiseDevice .budgetApplied)

end Sys2Proof.Machine
end

