-- ==== Sys2Proof/Machine/Sessions.lean ====
section
/-! DEFINITION. The life of a session and of a port: opening, settle, hold, re-attach, end, power-good, trips, link recovery,
quarantine, the end of a re-present, binding (spec/02, spec/05, spec/07). -/

namespace Sys2Proof.Machine

/-! ### Opening -/

/-- The session policy copied from the record (R25, R166). -/
def Policy.forSession (r : Policy) : SessionPolicy :=
  { trialList := r.trialList, maxSig := r.maxSig, identityWait := r.identityWait }

/-- A session record with its opening values (R22, R43), numbered one above the port's counter (R24). -/
def Port.newSession (q : Port) : Session where
  number := q.counter + 1
  phase := some .settling
  held := none
  presented := q.presented
  target := none
  mode := sampledMode q.pins.hen
  policy := q.policy.forSession
  trialsBegun := false
  identity := none
  boundSlot := none
  verdicts := []
  sum := 0
  count := 0
  probeSeen := false
  lastMean := none
  shed := false
  remaining := []
  current := none
  recomputeDue := false
  resumePlan := none
  resumptionWindow := false

/-- A session opens: the counter goes up, the record is built, the state is OCCUPIED, the settle timer starts, ATTACH is
raised (R28, R37). -/
def State.openSession (s : State) (p : PortId) : State :=
  (s.modPort p fun q =>
    { q with
      counter := q.counter + 1
      state := .occupied
      timers := { q.timers with settle := some settleTime }
      session := some q.newSession }).raisePort p .attach

/-- A session on a port in the victim set rests on P under the shed instead of settling (R137). -/
def State.victimRest (s : State) (p : PortId) : State :=
  if s.victim p then s.shedOccupied p else s

/-- A removable port opens a session (R28, R137). -/
def State.openRemovable (s : State) (p : PortId) : State := (s.openSession p).victimRest p

/-- A fixed port opens a session, its link timer starting when LOKn is inactive (R37, R148). -/
def State.openFixed (s : State) (p : PortId) : State :=
  (s.openSession p).modPort p fun q => if q.pins.lok then q else q.startLink

/-! ### Ending -/

/-- The bound entry of a session that ends is unbound (R39, R114). -/
def State.unbindSession (s : State) (p : PortId) : State :=
  match (s.port p).session.bind (·.boundSlot) with
  | none => s
  | some n => s.unbindRequest n

/-- A session ends: unbound, its record and sequencer gone, its timers stopped, its queue entry withdrawn (R39). The event's
rule sets the state, the lines and the grant, and ends the release event. -/
def State.endSession (s : State) (p : PortId) : State :=
  ((s.unbindSession p).withdraw p).modPort p fun q =>
    { q with
      timers := { q.timers with settle := none, identityWait := none, hold := none, evaluation := none }
      session := none }

/-- The port is switched off, its session ended, every timer stopped and its grant lowered (R19, R143, R155, R157). -/
def State.shutDown (s : State) (p : PortId) (mA : Nat) : State :=
  (((s.modPort p Port.switchOff).endSession p).modTimers p fun _ => Timers.stopped).fallGrant p mA

/-! ### The trials begin -/

/-- Trials begin: the field becomes yes, the sequence is computed, its first step taken (R29, R30). -/
def State.beginTrials (s : State) (p : PortId) : State :=
  (s.modSession p fun x => { x with trialsBegun := true }).recompute p

/-- SETTLING ends (R29). -/
def State.settleEnd (s : State) (p : PortId) : State :=
  match (s.port p).session with
  | none => s
  | some x =>
    if x.trialsBegun then s.recompute p
    else if 0 < x.policy.identityWait ∧ x.identity = none then
      s.modPort p fun q =>
        { q with
          timers := { q.timers with identityWait := some (seconds x.policy.identityWait) }
          session := q.session.map fun y => { y with phase := some .identifying } }
    else s.beginTrials p

/-- A new settle of 100 ms in phase SETTLING (R34, R35, R153). -/
def State.resettle (s : State) (p : PortId) : State :=
  s.modPort p fun q =>
    { q with
      timers := { q.timers with settle := some settleTime }
      session := q.session.map fun x => { x with phase := some .settling, held := none, target := none } }

/-! ### Detach, hold and re-attach -/

/-- ATTn falls in OCCUPIED: the phase becomes the held phase, the phase's timer stops, the hold timer starts (R31). -/
def Port.detach (q : Port) : Port :=
  { q with
    state := .hold
    timers := { q.timers with
      settle := none, identityWait := none, evaluation := none, hold := some (holdTime q.policy.holdCode) }
    session := q.session.map fun x => { x with phase := none, held := x.phase } }

/-- A detach, with the withdrawal of a queue entry and its release event (R31, R132). -/
def State.detach (s : State) (p : PortId) : State :=
  let s1 := s.modPort p Port.detach
  if s.queued p then (s1.withdraw p).afterRelease else s1

/-- The port comes back to OCCUPIED within the hold window; a held step is dropped (R34, R35). -/
def State.unhold (s : State) (p : PortId) : State :=
  s.modPort p fun q =>
    { q with
      state := .occupied
      timers := { q.timers with hold := none }
      session := q.session.map fun x => { x with current := none } }

/-- A bounce (R34, R58): REJECTED for the signature that was judged, the kept accumulators cleared, a new settle. -/
def State.bounce (s : State) (p : PortId) (sig : Sig) : State :=
  let s1 := ((s.recordVerdict p sig .rejected).raisePort p .verdict).unhold p
  ((s1.modSession p (·.clearAccumulators)).resettle p).raisePort p .attach

/-- A re-attach from another held phase (R35): back to a held STEADY, to a new settle, or to the rest on P of a victim
(R137). -/
def State.reAttach (s : State) (p : PortId) : State :=
  let s1 := (s.unhold p).raisePort p .attach
  if s.victim p then
    (s1.modSession p fun x => { x with held := none }).shedOccupied p
  else if s.heldPhase p = some .steady then
    s1.modSession p fun x => { x with phase := some .steady, held := none }
  else s1.resettle p

/-- ATTn rises in HOLD (R34, R35). -/
def State.returnInHold (s : State) (p : PortId) : State :=
  match (s.port p).session with
  | none => s
  | some x =>
    match x.held, x.judged with
    | some .evaluating, some sig => s.bounce p sig
    | _, _ => s.reAttach p

/-- The lines of a port that lost its session go back to P (R36): a retarget, a new re-present, or a fall of the grant at
once. -/
def State.backToP (s : State) (p : PortId) : State :=
  if (s.port p).atOnce .P then
    if baseGrant < s.grant p then (s.fallGrant p baseGrant).afterRelease else s
  else s.modPort p fun q => q.requestRePresent .P .holdExpiry

/-- The hold window expires (R36). -/
def State.holdEnd (s : State) (p : PortId) : State :=
  (((s.endSession p).setPortState p .idle).raisePort p .detach).backToP p

/-! ### POWERING -/

/-- A kept session resumes: a re-present toward its kept signature, the resumption window open (R38, R153). -/
def State.resume (s : State) (p : PortId) (x : Session) : State :=
  s.modPort p fun q =>
    let q1 := q.requestRePresent (x.presented.getD .P) .resumption
    { q1 with
      state := .occupied
      session := q1.session.map fun y =>
        { y with
          phase := some .representing
          presented := none
          target := q1.rePresent.map (·.target)
          resumptionWindow := true } }

/-- P is presented at the end of POWERING, with no re-present (R14). -/
def State.presentP (s : State) (p : PortId) : State := s.modPort p fun q => q.present .P

/-- POWERING ends: the first case of R20 that fits. -/
def State.powerGoodEnd (s : State) (p : PortId) : State :=
  let s1 := s.modTimers p fun t => { t with powerGood := none }
  if (s.port p).fixed then
    match (s.port p).session with
    | none => (s1.presentP p).openFixed p
    | some x => s1.resume p x
  else
    let s2 := (s1.presentP p).setPortState p .idle
    if (s.port p).pins.att then s2.openRemovable p else s2

/-- The switch turns on and POWERING begins with the policy's power-good wait; a wait of 0 ends in the same event (R16,
R20). -/
def State.enterPowering (s : State) (p : PortId) : State :=
  let s1 := s.modPort p fun q =>
    { q with
      switchOn := true
      state := .powering
      timers := { q.timers with powerGood := some q.policy.powerGood } }
  if (s.port p).policy.powerGood = 0 then s1.powerGoodEnd p else s1

/-! ### Overcurrent -/

/-- The trip level of a grant: the grant and a quarter of it, rounded down (R142). -/
def tripLevel (grant : Nat) : Nat := grant + grant / 4

/-- The readings of a port are compared with the trip level in this state (R141). -/
def PortState.compared : PortState → Bool
  | .idle => true
  | .occupied => true
  | .hold => true
  | .disabled => false
  | .powering => false
  | .fault => false
  | .recovery => false
  | .quarantined => false

/-- A trip (R143). -/
def State.trip (s : State) (p : PortId) : State :=
  (((s.shutDown p baseGrant).modPort p fun q =>
    { q with
      state := .fault
      tripCount := q.tripCount + 1
      timers := { q.timers with coolDown := some coolDownTime } }).raisePort p .fault).afterRelease

/-- A reading as the monitor delivers it: a multiple of 10 mA, 4000 at most (R141, log 8). -/
def delivered (reading : Nat) : Nat := min reading 4000 / 10 * 10

/-- A reading arrives: the latest reading, and the accumulators in EVALUATING (R55, R141). -/
def Port.takeReading (q : Port) (mA : Nat) : Port :=
  { q with
    latest := mA
    session := q.session.map fun x =>
      if x.phase = some .evaluating then { x with sum := x.sum + mA, count := x.count + 1 } else x }

/-- A reading compared with the trip level (R142). -/
def State.compareReading (s : State) (p : PortId) (mA : Nat) : State :=
  if tripLevel (s.grant p) < mA then
    if (s.port p).overcurrent then s.trip p else s.modPort p fun q => { q with overcurrent := true }
  else s.modPort p fun q => { q with overcurrent := false }

/-! ### Link recovery and quarantine -/

/-- The resume plan of the phase at suspension (R153). -/
def resumePlanFor : Option Phase → ResumePlan
  | some .settling => .settle
  | some .identifying => .settle
  | some .steady => .rest
  | some .representing => .continueTrials
  | some .evaluating => .continueTrials
  | some .waitingBudget => .continueTrials
  | none => .continueTrials

/-- The letter the taps held before the switch goes off: the starting signature of a re-present in flight (R151). -/
def Port.keptSignature (q : Port) : Option Sig :=
  match q.rePresent with
  | some r => r.starting
  | none => q.presented

/-- A session suspended by link recovery (R38, R151 steps 3 and 4). -/
def Session.suspend (kept : Option Sig) (x : Session) : Session :=
  { x.abandon with
    phase := none
    held := none
    presented := kept
    target := none
    remaining := []
    current := none
    resumePlan := some (resumePlanFor x.phase)
    resumptionWindow := false }

/-- The port unit's part of an entry to RECOVERY by link timer expiry (R151 steps 1 to 4 and 7). -/
def Port.enterRecovery (q : Port) : Port :=
  { q.switchOff with
    recoveryCount := q.recoveryCount + 1
    state := .recovery
    timers := { q.timers with
      settle := none, identityWait := none, evaluation := none, probe := none, link := none,
      toggleOff := some (toggleOffTime q.policy.toggleOff) }
    session := q.session.map (·.suspend q.keptSignature) }

/-- Entry to RECOVERY by link timer expiry (R151): the session suspended, a queue entry withdrawn, a victim released,
RECOVERY raised. -/
def State.enterRecovery (s : State) (p : PortId) : State :=
  let s1 := ((s.modPort p Port.enterRecovery).withdraw p).raisePort p .recovery
  let s2 := if s.victim p then s1.shedSuspended p else s1
  if s.queued p || s.victim p then s2.afterRelease else s2

/-- Entry to QUARANTINED by link timer expiry (R155). -/
def State.linkQuarantine (s : State) (p : PortId) : State :=
  (((s.shutDown p baseGrant).modPort p fun q =>
    { q with state := .quarantined, quarantine := some .link }).raisePort p .quarantine).afterRelease

/-- Entry to QUARANTINED by cool-down expiry (R146). -/
def State.overcurrentQuarantine (s : State) (p : PortId) : State :=
  (s.modPort p fun q => { q with state := .quarantined, quarantine := some .overcurrent }).raisePort p .quarantine

/-! ### The end of a re-present -/

/-- The re-present in flight completes: its target is presented, its record cleared (R12 step 1), and the session's target
cleared with it (R12 step 2). -/
def Port.completeRePresent (q : Port) (r : RePresent) : Port :=
  let q1 := q.present r.target
  { q1 with session := q1.session.map fun x => { x with target := none } }

/-- What a re-present's end leads to in OCCUPIED outside a resumption window (R12 step 4, R64, R66). -/
def State.sessionContinues (s : State) (p : PortId) (r : RePresent) (current : Option TrialStep) : State :=
  if r.requester = .shed then s.enterSteady p
  else if r.hubRetarget || r.requester = .hub then s.recompute p
  else
    match current with
    | some st =>
      match st.kind with
      | .evaluate => s.startWindow p
      | .present => s.steadyOutcome p
    | none => s.steadyOutcome p

/-- A resumption window closes at its re-present's end: the plan is cleared, the link timer starts when LOKn is inactive
(R153, R154). -/
def State.closeWindow (s : State) (p : PortId) : State :=
  s.modPort p fun q =>
    let q1 := if q.pins.lok then q else q.startLink
    { q1 with session := q1.session.map fun x => { x with resumePlan := none, resumptionWindow := false } }

/-- How a kept session continues after its resumption re-present: the first row of R153 that fits. -/
def State.resumeContinues (s : State) (p : PortId) (r : RePresent) (x : Session) : State :=
  let s1 := s.closeWindow p
  if r.requester = .shed || x.shed then s1.enterSteady p
  else if r.hubRetarget || r.requester = .hub then s1.recompute p
  else
    match x.resumePlan with
    | some .settle => s1.resettle p
    | some .rest => s1.steadyOutcome p
    | some .continueTrials => s1.recompute p
    | none => s1.recompute p

/-- A session that waits for budget has its current step's signature as its target (R22, R43); another is left alone. -/
def State.awaitTarget (s : State) (p : PortId) : State :=
  s.modSession p fun x =>
    if x.phase = some .waitingBudget then { x with target := x.current.map (·.sig) } else x

/-- The continuation of a re-present's end in OCCUPIED (R12 step 4, R27, R153). `x` is the session as the re-present's end
found it: in another phase than REPRESENTING the re-present was inherited and nothing follows, but that a session which goes
on waiting has its awaited signature as target again (R43, log 10). -/
def State.continueOccupied (s : State) (p : PortId) (r : RePresent) (x : Session) : State :=
  if x.phase = some .representing then
    if x.resumptionWindow then s.resumeContinues p r x else s.sessionContinues p r x.current
  else s.awaitTarget p

/-- The held phase REPRESENTING after a completion in HOLD (R32). -/
def State.holdRepresenting (s : State) (p : PortId) : State :=
  s.modSession p fun x => { x with held := some .representing }

/-- The continuation of a re-present's end in HOLD (R32; a shed before the hub-retarget mark, log 11). -/
def State.continueHeld (s : State) (p : PortId) (r : RePresent) (x : Session) : State :=
  if r.requester = .shed then s.enterSteadyHeld p
  else if r.hubRetarget then s.holdRepresenting p
  else if x.held = some .representing && r.requester = .sequencer then
    match x.current with
    | some st =>
      match st.kind with
      | .evaluate => s.holdRepresenting p
      | .present => s.enterSteadyHeld p
    | none => s.enterSteadyHeld p
  else s

/-- The continuation of a re-present's end by the port state (R12 step 4). -/
def State.continueAfter (s : State) (p : PortId) (r : RePresent) (before : Port) : State :=
  match before.session with
  | none => s
  | some x =>
    match before.state with
    | .occupied => s.continueOccupied p r x
    | .hold => s.continueHeld p r x
    | .disabled => s
    | .powering => s
    | .idle => s
    | .fault => s
    | .recovery => s
    | .quarantined => s

/-- The re-present timer expires (R12). -/
def State.rePresentEnd (s : State) (p : PortId) (r : RePresent) : State :=
  ((s.modPort p fun q => q.completeRePresent r).reportPresented p r.target).continueAfter p r (s.port p)

/-! ### HENn -/

/-- HENn rising takes something from the lines: a charge-only signature presented or targeted (R5). -/
def Port.hubTakes (q : Port) : Bool :=
  match q.rePresent with
  | some r => r.target.chargeOnly
  | none => q.presented.any (·.chargeOnly)

/-- The effect of HENn rising at the lines (R5). -/
def Port.hubLines (q : Port) : Port :=
  if q.hubTakes then
    match q.rePresent with
    | some r => { q with rePresent := some (r.retarget .P .hub true) }
    | none => q.startRePresent .P .hub true
  else q

/-- The session when HENn rising took something from its lines: its evaluation is abandoned, its step dropped, its phase or
held phase becomes REPRESENTING toward P (R62, R33). -/
def Session.hubTaken (x : Session) : Session :=
  { x.abandon with
    current := none
    target := some .P
    phase := x.phase.map fun _ => .representing
    held := x.held.map fun _ => .representing }

/-- The port when HENn rising took something from its lines (R5, R62, R33). -/
def Port.hubTakesLines (q : Port) : Port :=
  let q1 := q.hubLines
  { q1 with
    timers := { q1.timers with settle := none, identityWait := none, evaluation := none }
    session := q1.session.map (·.hubTaken) }

/-- The session waits for budget toward a charge-only signature in OCCUPIED (R63). The signature it waits for is its current
step's (R43). -/
def Port.waitsChargeOnly (q : Port) : Bool :=
  q.state = .occupied &&
    q.session.any fun x => x.phase = some .waitingBudget && x.current.any (·.sig.chargeOnly)

/-- HENn rising, its level already recorded (R5, R33, R62, R63). -/
def State.hubRises (s : State) (p : PortId) : State :=
  if (s.port p).hubTakes then
    let s1 := s.modPort p Port.hubTakesLines
    if s.queued p then (s1.withdraw p).afterRelease else s1
  else if (s.port p).waitsChargeOnly then ((s.withdraw p).afterRelease).recompute p
  else s

/-- HENn falling, its level already recorded: an upgrade on release (R65). -/
def State.hubFalls (s : State) (p : PortId) : State :=
  let q := s.port p
  if q.state = .occupied && q.policy.upgradeOnRelease && q.session.any fun x => x.phase = some .steady && !x.shed then
    s.recompute p
  else s

/-! ### Binding -/

/-- Verdicts that a binding hands over: ACCEPTED or REJECTED and not folded (R105). -/
def VerdictEntry.handedOver (v : VerdictEntry) : Bool := v.verdict.counts && !v.folded

/-- The number of verdicts that a binding hands over (R105). -/
def Session.toHandOver (x : Session) : Nat := (x.verdicts.filter (·.handedOver)).length

/-- The pending verdicts are handed over, oldest first: folded into an entry that is not PINNED, marked folded in either case
(R105). -/
def State.handOver (s : State) (p : PortId) (n : SlotId) (x : Session) : State :=
  let s1 := s.modSession p fun y =>
    { y with verdicts := y.verdicts.map fun v => if v.handedOver then { v with folded := true } else v }
  if (s.entry n).any fun e => e.pinned.isNone then
    (x.verdicts.filter (·.handedOver)).foldl (fun t v => t.foldRequest n v.sig (v.verdict = .accepted)) s1
  else s1

/-- What a bind request's answer means for the session: the bound slot and the hand-over, or nothing after FULL (R104,
R106). -/
def State.takeAnswer (s : State) (p : PortId) (x : Session) : BindAnswer → State
  | .found n => (s.modSession p fun y => { y with boundSlot := some n }).handOver p n x
  | .inserted n => (s.modSession p fun y => { y with boundSlot := some n }).handOver p n x
  | .full => s

/-- The session's identity field written (R103). -/
def State.setIdentity (s : State) (p : PortId) (i : Identity) : State :=
  s.modSession p fun x => { x with identity := some i }

/-- A bind request for a session and its hand-over (R104). -/
def State.bindSession (s : State) (p : PortId) (x : Session) (i : Identity) : State :=
  (s.bindRequest i.vendor i.product i.release).takeAnswer p x (s.memory.bindAnswer i.vendor i.product)

/-- The posted key is the one the session is bound under (R103). -/
def Session.sameKey (x : Session) (i : Identity) : Bool :=
  x.identity.any fun j => j.vendor == i.vendor && j.product == i.product

/-- What a Post Identity is (R103). -/
inductive PostKind where
  | bind
  | confirm (n : SlotId)
  | rebind (n : SlotId)
deriving DecidableEq, Repr

/-- The first comparison of a Post Identity (R103). -/
def Session.postKind (x : Session) (i : Identity) : PostKind :=
  match x.boundSlot with
  | none => .bind
  | some n => if x.sameKey i then .confirm n else .rebind n

/-- The old entry is given up at a rebind (R108 step 1). -/
def State.unbindForRebind (s : State) (p : PortId) (n : SlotId) : State :=
  (s.unbindRequest n).modSession p fun x => { x with boundSlot := none }

/-- The binding itself, before it acts on the trials (R104, R107, R108). -/
def State.postBinding (s : State) (p : PortId) (x : Session) (i : Identity) : State :=
  let s1 := s.setIdentity p i
  match x.postKind i with
  | .bind => s1.bindSession p x i
  | .confirm n => s1.confirmRequest n i.release
  | .rebind n => ((s1.unbindForRebind p n).bindSession p x i).raisePort p .identity

/-- The memory that the bind request of a Post Identity meets: at a rebind, with the old entry given up (R108). -/
def State.memoryAtBind (s : State) (x : Session) (i : Identity) : ProfileMemory :=
  match x.postKind i with
  | .rebind n => (s.unbindRequest n).memory
  | .bind => s.memory
  | .confirm _ => s.memory

/-- The answer to the bind request of a Post Identity (R109); a confirm makes none. -/
def State.postAnswer (s : State) (x : Session) (i : Identity) : BindAnswer :=
  (s.memoryAtBind x i).bindAnswer i.vendor i.product

/-- The Profile Memory applies a release change in this Post Identity (R79, R109). -/
def State.postReleaseChange (s : State) (x : Session) (i : Identity) : Bool :=
  match x.postKind i with
  | .confirm n => s.memory.releaseDiffers n i.release
  | .bind =>
    match s.postAnswer x i with
    | .found n => s.memory.releaseDiffers n i.release
    | .inserted _ => false
    | .full => false
  | .rebind _ =>
    match s.postAnswer x i with
    | .found n => s.memory.releaseDiffers n i.release
    | .inserted _ => false
    | .full => false

/-- A Post Identity makes a computation call (R110): a bind answered with a slot, any rebind, a confirm with a release
change. -/
def State.postCalls (s : State) (x : Session) (i : Identity) : Bool :=
  match x.postKind i with
  | .bind => s.postAnswer x i != .full
  | .confirm _ => s.postReleaseChange x i
  | .rebind _ => true

/-- A Post Identity acts on the trials: it ends IDENTIFYING whatever the answer, and otherwise makes its call (R110 to
R112). -/
def State.postActs (s : State) (p : PortId) (calls : Bool) : State :=
  if (s.port p).state = .occupied && s.phase p = some .identifying then
    (s.modTimers p fun t => { t with identityWait := none }).beginTrials p
  else if calls then s.computationCall p
  else s

/-! ### A pin change told to the port units -/

/-- The ports whose sessions are bound to a slot (R89). -/
def State.boundPorts (s : State) (n : SlotId) : List PortId :=
  allPorts.filter fun p => (s.port p).session.any fun x => x.boundSlot = some n

/-- The next free choice used up. -/
def State.spendChoice (s : State) : State := { s with freeCount := s.freeCount + 1 }

/-- One of several events that the spec does not order, chosen freely (logs 3, 4). -/
def State.freeChoice {α : Type} (s : State) (list : List α) : Option α :=
  list[Config.freePick s.freeCount % list.length]?

/-- Each of a set of port units makes its computation call, in an order that is free when there are several (R113, log 4).
The first argument bounds the number of calls. -/
def State.tellPorts : Nat → State → List PortId → State
  | 0, s, _ => s
  | _ + 1, s, [] => s
  | _ + 1, s, [p] => s.computationCall p
  | n + 1, s, list =>
    match s.freeChoice list with
    | some p => State.tellPorts n (s.spendChoice.computationCall p) (list.erase p)
    | none => s

/-- A pin change of an entry is told to the port units bound to it (R89, R113). -/
def State.tellPinChange (s : State) (n : SlotId) : State :=
  State.tellPorts 8 s (s.boundPorts n)

end Sys2Proof.Machine
end

