-- ==== Sys2Proof/Machine/Operands.lean ====
section
/-! DEFINITION. Parameter codes and response layouts: what the bytes of a frame name, and the data a response carries
(spec/10, R196, R201, R202). -/

namespace Sys2Proof.Machine

/-! ### Codes to values -/

/-- A port number 00h to 07h (R201). -/
def portOf (b : Byte) : Option PortId := if h : b.toNat < 8 then some ⟨b.toNat, h⟩ else none

/-- A group number 00h to 08h (R201). -/
def groupOf (b : Byte) : Option GroupId := if h : b.toNat < 9 then some ⟨b.toNat, h⟩ else none

/-- A slot number 00h to 2Fh (R201). -/
def slotOf (b : Byte) : Option SlotId := if h : b.toNat < 48 then some ⟨b.toNat, h⟩ else none

/-- A signature code 01h to 06h, the rank (R201). -/
def sigOf (b : Byte) : Option Sig :=
  match b.toNat with
  | 1 => some .P
  | 2 => some .L
  | 3 => some .A
  | 4 => some .B
  | 5 => some .H
  | 6 => some .F
  | _ => none

/-- A yes/no code (R201). -/
def yesNoOf (b : Byte) : Option Bool :=
  match b.toNat with
  | 0 => some false
  | 1 => some true
  | _ => none

/-- A pinned-signature code of PM Write: a letter, or 00h for absent (R92, R201); the outer `none` is an invalid code. -/
def pinOf (b : Byte) : Option (Option Sig) := if b = 0 then some none else (sigOf b).map some

/-- A target-slot code of PM Write: a slot, or FFh for none (R92, R201); the outer `none` is an invalid code. -/
def targetOf (b : Byte) : Option (Option SlotId) := if b = 0xFF then some none else (slotOf b).map some

/-! ### Values to codes -/

/-- A number in one byte. -/
def byteOf (n : Nat) : Byte := BitVec.ofNat 8 n

/-- A number in two bytes, most significant first (R201). -/
def twoBytes (n : Nat) : List Byte := [byteOf (n / 256), byteOf n]

/-- A number in three bytes, most significant first (R202). -/
def threeBytes (n : Nat) : List Byte := [byteOf (n / 65536), byteOf (n / 256), byteOf n]

/-- A 16-bit value in two bytes, most significant first (R201). -/
def halfBytes (h : Half) : List Byte := [hiByte h, loByte h]

/-- One bit of a byte. -/
def bitAt (b : Bool) (i : Nat) : Nat := if b then 2 ^ i else 0

/-- Yes or no (R201). -/
def yesNo (b : Bool) : Byte := if b then 1 else 0

/-- A signature, 00h for neutral or absent (R201). -/
def sigCode : Option Sig → Byte
  | none => 0
  | some s => byteOf s.rank

/-- A slot, FFh for absent (R201). -/
def slotCode : Option SlotId → Byte
  | none => 0xFF
  | some n => byteOf n.val

/-- A port state (R201). -/
def PortState.code : PortState → Nat
  | .disabled => 0
  | .powering => 1
  | .idle => 2
  | .occupied => 3
  | .hold => 4
  | .fault => 5
  | .recovery => 6
  | .quarantined => 7

/-- A phase, FFh for absent (R201). -/
def phaseCode : Option Phase → Byte
  | some .settling => 0
  | some .identifying => 1
  | some .representing => 2
  | some .evaluating => 3
  | some .waitingBudget => 4
  | some .steady => 5
  | none => 0xFF

/-- An entry state (R201). -/
def EntryState.code : EntryState → Byte
  | .new => 0
  | .tentative => 1
  | .settled => 2
  | .pinned => 3

/-- The quarantine reason in bits 5 to 4 (R202). -/
def quarantineCode : Option QuarantineReason → Nat
  | none => 0
  | some .link => 1
  | some .overcurrent => 2

/-- The probe detector (R202). -/
def Detector.code : Detector → Byte
  | .off => 0
  | .watching => 1
  | .timing => 2
  | .replying => 3

/-- The resume plan (R202). -/
def planCode : Option ResumePlan → Byte
  | none => 0
  | some .settle => 1
  | some .rest => 2
  | some .continueTrials => 3

/-- A verdict's outcome in bits 3 to 2 (R202). -/
def Verdict.code : Verdict → Nat
  | .accepted => 1
  | .rejected => 2
  | .inconclusive => 3

/-- The status byte (R196). -/
def statusCode : Status → Byte
  | .ok => 0x00
  | .badCrc => 0x10
  | .frameShort => 0x11
  | .badCode => 0x12
  | .badLength => 0x13
  | .badParam => 0x20
  | .wrongState => 0x21
  | .budgetBusy => 0x30
  | .noBudget => 0x31
  | .notFound => 0x40
  | .duplicate => 0x41
  | .inUse => 0x42
  | .full => 0x43
  | .stale => 0x50
  | .noResponse => 0x7F

/-- A list of bytes cut or filled with 00h to a length. -/
def padded (n : Nat) (bytes : List Byte) : List Byte := (bytes ++ List.replicate n 0).take n

/-! ### Layouts -/

/-- The 18-byte policy record (R202). -/
def Policy.layout (r : Policy) : List Byte :=
  [yesNo r.fixedDevice, yesNo r.upgradeOnRelease, byteOf r.priority, byteOf r.trialList.length]
    ++ padded 5 (r.trialList.map fun s => sigCode (some s))
    ++ [sigCode (some r.maxSig), byteOf r.evaluationWindow, byteOf r.holdCode, byteOf r.identityWait, byteOf r.powerGood,
      byteOf r.linkTimeout, byteOf r.toggleOff, byteOf r.recoveryLimit, byteOf r.faultRetries]

/-- Bytes 20 to 28 of the policy response: the session policy, all 00h when no session is open or kept (R170, R202). The
positions of bytes 22 to 26 beyond the session list's length are sent as 00h, which is the model's choice (log 29). -/
def sessionPolicyLayout : Option Session → List Byte
  | none => List.replicate 9 0
  | some x =>
    [1, byteOf x.policy.trialList.length]
      ++ padded 5 (x.policy.trialList.map fun s => sigCode (some s))
      ++ [sigCode (some x.policy.maxSig), byteOf x.policy.identityWait]

/-- The 29 bytes of Get Policy and Set Policy (R202). -/
def State.policyData (s : State) (p : PortId) : List Byte :=
  [byteOf p.val, yesNo (s.port p).policy.enabled] ++ (s.port p).policy.layout ++ sessionPolicyLayout (s.port p).session

/-- Get Port byte 1: the port state and the quarantine reason (R202). Bits 3, 6 and 7, assigned to nothing, are sent as 0, which is
the model's choice (log 29). -/
def Port.stateByte (q : Port) : Byte := byteOf (q.state.code + 16 * quarantineCode q.quarantine)

/-- Get Port byte 2 (R202). -/
def Port.flagByte (q : Port) : Byte :=
  byteOf (bitAt q.fixed 0 + bitAt q.pins.att 1 + bitAt q.pins.hen 2 + bitAt q.pins.lok 3 + bitAt q.overcurrent 4
    + bitAt q.rePresent.isSome 5 + bitAt (q.rePresent.any (·.hubRetarget)) 6 + bitAt q.session.isSome 7)

/-- Get Port bytes 15 and 16: which of the link, cool-down and toggle-off timers runs, and the time left on it (R159, R202).
With none running byte 16 is sent as 00h, which is the model's choice (log 29). -/
def Port.timerBytes (q : Port) : List Byte :=
  match q.timers.link, q.timers.coolDown, q.timers.toggleOff with
  | some n, _, _ => [1, byteOf (hundredMs n)]
  | none, some n, _ => [2, byteOf (hundredMs n)]
  | none, none, some n => [3, byteOf (hundredMs n)]
  | none, none, none => [0, 0]

/-- One byte of the verdict list (R202). Bit 1, assigned to nothing, is sent as 0, which is the model's choice (log 29). -/
def VerdictEntry.byte (v : VerdictEntry) : Byte :=
  byteOf (16 * v.sig.rank + 4 * v.verdict.code + bitAt v.folded 0)

/-- The phase that Get Port and Post Identity report: the held phase in HOLD (R41, R109). -/
def Session.shownPhase (x : Session) : Option Phase :=
  match x.held with
  | some h => some h
  | none => x.phase

/-- Get Port byte 18 (R202). -/
def Session.flagByte (x : Session) : Byte :=
  byteOf (bitAt x.held.isSome 0 + bitAt x.shed 1 + bitAt x.trialsBegun 2 + bitAt (x.mode = .data) 3 + bitAt x.probeSeen 4
    + bitAt x.identity.isSome 5 + bitAt x.boundSlot.isSome 6 + bitAt x.resumptionWindow 7)

/-- Get Port bytes 21 to 26 (R202). -/
def identityBytes : Option Identity → List Byte
  | none => List.replicate 6 0
  | some i => halfBytes i.vendor ++ halfBytes i.product ++ halfBytes i.release

/-- Get Port bytes 38 and 39: the last window mean, FFFFh for absent (R202). -/
def meanBytes : Option Nat → List Byte
  | none => [0xFF, 0xFF]
  | some n => twoBytes n

/-- Get Port bytes 17 to 39, for an open or kept session (R202). -/
def Session.layout (x : Session) : List Byte :=
  [phaseCode x.shownPhase, x.flagByte, sigCode x.target, planCode x.resumePlan]
    ++ identityBytes x.identity
    ++ [slotCode x.boundSlot]
    ++ padded 5 (x.verdicts.map (·.byte))
    ++ threeBytes x.sum ++ twoBytes x.count ++ meanBytes x.lastMean

/-- The data of Get Port: 17 bytes with no session open or kept, 40 with one (R41, R202). -/
def State.portData (s : State) (p : PortId) : List Byte :=
  let q := s.port p
  [byteOf p.val, q.stateByte, q.flagByte]
    ++ twoBytes (s.grant p)
    ++ [sigCode q.presented, sigCode (q.rePresent.map (·.target)), q.detector.code,
      byteOf (16 * q.tripCount + q.recoveryCount)]
    ++ halfBytes q.counter ++ twoBytes q.latest ++ twoBytes (tripLevel (s.grant p))
    ++ q.timerBytes
    ++ (match q.session with
      | none => []
      | some x => x.layout)

/-- The data of a port action (R202): port, Get Port byte 1 (with its unassigned bits, log 29) and the phase, after the
command. -/
def State.actionData (s : State) (p : PortId) : List Byte :=
  [byteOf p.val, (s.port p).stateByte, phaseCode (s.phase p)]

/-- A tally pair in one byte (R202). -/
def Tally.byte (t : Tally) : Byte := byteOf (16 * t.acc + t.rej)

/-- The 16-byte entry record of a slot; empty for a VACANT one, which no response carries (R202). -/
def State.entryData (s : State) (n : SlotId) : List Byte :=
  match s.entry n with
  | none => []
  | some e =>
    [byteOf n.val, (e.state s.memory.threshold).code]
      ++ halfBytes e.vendor ++ halfBytes e.product ++ halfBytes e.release
      ++ [sigCode e.pinned, sigCode e.preferred, byteOf e.users,
        e.tallies.l.byte, e.tallies.a.byte, e.tallies.b.byte, e.tallies.h.byte, e.tallies.f.byte]

/-- A set of ports as one byte, bit n for port n (R202). -/
def portSet (f : PortId → Bool) : Byte :=
  byteOf ((allPorts.map fun p => bitAt (f p) p.val).sum)

/-- One queue entry of the device status: port and signature, then the time left (R139, R202). -/
def QueueEntry.bytes (e : QueueEntry) : List Byte :=
  [byteOf (16 * e.port.val + e.sig.rank), byteOf (hundredMs e.left)]

/-- A current, 0000h for absent (R201). -/
def currentBytes : Option Nat → List Byte
  | none => [0, 0]
  | some n => twoBytes n

/-- The 31 bytes of Get Device Status (R198, R202). -/
def State.deviceStatus (s : State) : List Byte :=
  twoBytes s.budget.total ++ currentBytes s.budget.pendingTotal ++ twoBytes s.sumGrants ++ twoBytes s.headroom
    ++ [portSet s.victim, portSet fun p => (s.port p).policy.enabled, byteOf s.budget.queue.length]
    ++ padded 16 (s.budget.queue.flatMap (·.bytes))
    ++ [byteOf s.budget.waitLimit, byteOf s.memory.entryCount]
    ++ halfBytes s.memory.orderCount

/-- A group's kind set and epoch (R202). -/
def Group.bytes (g : Group) : List Byte := halfBytes g.pending ++ [g.epoch]

/-- The 30 bytes of Read Notices (R181, R202). -/
def State.noticeData (s : State) : List Byte :=
  s.notices.groups.toList.flatMap (·.bytes) ++ halfBytes s.notices.mask ++ [yesNo s.notices.alertLow]

/-- The outcome byte of a Post Identity (R109, R202). -/
def PostKind.outcome (answer : BindAnswer) : PostKind → Nat
  | .confirm _ => 3
  | .bind =>
    match answer with
    | .full => 0
    | .found _ => 1
    | .inserted _ => 2
  | .rebind _ =>
    match answer with
    | .full => 0
    | .found _ => 1
    | .inserted _ => 2

/-! ### The response frame and its reading -/

/-- The bytes of a response frame (R194). -/
def Response.bytes (r : Response) : List Byte :=
  let body := [statusCode r.status, r.tag, r.code, byteOf r.data.length] ++ r.data
  body ++ [crc8 body]

/-- The response frame the slot reads as; an empty slot reads as NO_RESPONSE (R194). -/
def State.responseBytes (s : State) : List Byte :=
  match s.host.response with
  | some r => r.bytes
  | none => Response.bytes ⟨.noResponse, 0, 0, []⟩

/-- The byte at a position of a read, the first being 0; FFh beyond the frame (R195). -/
def State.readByte (s : State) (i : Nat) : Byte := s.responseBytes.getD i 0xFF

/-- The part is in a read transaction addressed to it, with RST# high (R186, R195). -/
def HostPort.reading (h : HostPort) : Bool := h.bus = .read && !h.inReset

/-- What the part puts on SDA as the next byte of the read transaction that the last address byte began and no STOP has ended,
when the controller answered the bytes before it with these acknowledges; `none` is SDA released (R195). It is released
outside a read of the part, while RST# is low, and from the first byte not acknowledged on (log 17). -/
def State.sent (s : State) (acks : List Bool) : Option Byte :=
  if s.host.reading && acks.all id then some (s.readByte acks.length) else none

end Sys2Proof.Machine
end

