-- ==== Sys2Proof/Machine/DeviceCommands.lean ====
section
/-! DEFINITION. The resets and the device commands: Get Info, Get Device Status, Set Budget, Set Globals, Get Globals, Reset
Device (spec/10 R197 to R199, spec/06 R133 to R138, spec/08 R171 to R173; resets R42, R100, R140, R160, R175). -/

namespace Sys2Proof.Machine

/-- An entry after a pin reset or a Reset Device: users 0, all else kept (R100). -/
def Entry.unused (e : Entry) : Entry := { e with users := 0 }

/-- The Profile Memory after a pin reset or a Reset Device (R100). -/
def ProfileMemory.keep (m : ProfileMemory) : ProfileMemory :=
  { slots := m.slots.map (Option.map Entry.unused), recency := m.recency, orderCount := 0, threshold := 3 }

/-- The port units, the budget arbiter and the notice unit at their reset values (R42, R140, R160, R161, R171, R175). The
pins are inputs and keep their levels. -/
def State.resetBlocks (s : State) : State :=
  { s with
    ports := s.ports.map fun q => Port.reset q.pins
    budget := Budget.reset
    notices := Notices.reset }

/-- The reset of a pin reset and a Reset Device: the Profile Memory keeps its entries (R100, R199). -/
def State.resetKeeping (s : State) : State := s.resetBlocks.modMemory ProfileMemory.keep

/-- The reset of a power-on: the Profile Memory is empty (R99). -/
def State.resetAll (s : State) : State := s.resetBlocks.modMemory fun _ => ProfileMemory.reset

/-- The ten bytes of Get Info (R197, R202): part code 0840h, family code 44h, revision 01h, 8 ports, 48 slots, queue
capacity 8, largest parameter length 32, largest data length 40, the address in use. -/
def State.infoData (s : State) : List Byte :=
  [0x08, 0x40, 0x44, 0x01, 8, 48, 8, 32, 40, byteOf s.host.address.toNat]

/-- Get Info (R197). -/
def State.getInfo (tag : Byte) (s : State) : State := s.respond .ok tag 0x01 s.infoData

/-- GET_INFO -/
def execGetInfo (tag : Byte) (s : State) : Result := .next (s.taking (State.getInfo tag))

/-- Get Device Status (R198). -/
def State.getDeviceStatus (tag : Byte) (s : State) : State := s.respond .ok tag 0x02 s.deviceStatus

/-- GET_DEVICE_STATUS -/
def execGetDeviceStatus (tag : Byte) (s : State) : Result := .next (s.taking (State.getDeviceStatus tag))

/-- A budget total lies between 4000 and 20000 mA in steps of 100 mA (R133). -/
def totalValid (mA : Nat) : Bool := decide (4000 ≤ mA) && decide (mA ≤ 20000) && mA % 100 == 0

/-- The data of Set Budget: the outcome, the victims chosen, the total in effect, the pending total (R202). -/
def State.budgetData (s : State) (victims : Nat) : List Byte :=
  [if s.budget.pendingTotal.isSome then 1 else 0, byteOf victims] ++ twoBytes s.budget.total
    ++ currentBytes s.budget.pendingTotal

/-- A response written with data of the state that the command left. -/
def State.respondWith (s : State) (tag code : Byte) (data : State → List Byte) : State :=
  s.respond .ok tag code (data s)

/-- Set Budget (R133, R134). -/
def State.setBudget (tag : Byte) (total : Half) (s : State) : State :=
  if !totalValid total.toNat then s.refuse .badParam tag 0x03
  else if s.budget.pendingTotal.isSome then s.refuse .budgetBusy tag 0x03
  else if s.sumGrants ≤ total.toNat then (s.applyTotal total.toNat).respondWith tag 0x03 (·.budgetData 0)
  else (s.startShed total.toNat).respondWith tag 0x03 (·.budgetData (s.victimsFor total.toNat).length)

/-- SET_BUDGET -/
def execSetBudget (tag : Byte) (total : Half) (s : State) : Result := .next (s.taking (State.setBudget tag total))

/-- The settings lie in their ranges (R172). -/
def globalsValid (threshold waitLimit : Byte) : Bool :=
  decide (2 ≤ threshold.toNat) && decide (threshold.toNat ≤ 7) && decide (1 ≤ waitLimit.toNat)
    && decide (waitLimit.toNat ≤ 15)

/-- The number of entries whose state differs under two thresholds (R172). -/
def ProfileMemory.stateChanges (m : ProfileMemory) (old new : Nat) : Nat :=
  (allSlots.filter fun n => (m.entry n).any fun e => e.state old != e.state new).length

/-- The two settings written (R172). -/
def State.writeGlobals (s : State) (threshold waitLimit : Nat) : State :=
  { s with
    memory := { s.memory with threshold := threshold }
    budget := { s.budget with waitLimit := waitLimit } }

/-- The two settings as a response carries them (R202). -/
def State.globalsData (s : State) : List Byte := [byteOf s.memory.threshold, byteOf s.budget.waitLimit]

/-- Set Globals (R172). -/
def State.setGlobals (tag threshold waitLimit : Byte) (s : State) : State :=
  if globalsValid threshold waitLimit then
    (s.writeGlobals threshold.toNat waitLimit.toNat).respondWith tag 0x04 fun t =>
      t.globalsData ++ [byteOf (s.memory.stateChanges s.memory.threshold threshold.toNat)]
  else s.refuse .badParam tag 0x04

/-- SET_GLOBALS -/
def execSetGlobals (tag threshold waitLimit : Byte) (s : State) : Result :=
  .next (s.taking (State.setGlobals tag threshold waitLimit))

/-- Get Globals (R173). -/
def State.getGlobals (tag : Byte) (s : State) : State := s.respond .ok tag 0x05 s.globalsData

/-- GET_GLOBALS -/
def execGetGlobals (tag : Byte) (s : State) : Result := .next (s.taking (State.getGlobals tag))

/-- Reset Device: the bus address stays, the response is written after the reset (R199). -/
def State.resetDevice (tag : Byte) (s : State) : State := s.resetKeeping.respond .ok tag 0x06 []

/-- RESET_DEVICE -/
def execResetDevice (tag : Byte) (s : State) : Result := .next (s.taking (State.resetDevice tag))

/-- The host port when a reset by pin or by power begins: no frame, no response, the bus released (R186, R190, R194,
R195). -/
def HostPort.emptied (h : HostPort) : HostPort :=
  { h with bus := .notAddressed, ack := false, frame := none, response := none }

/-- POWER_ON_RESET: every block at its reset values, the Profile Memory and the response slot empty, ADDR sampled at its end
(R42, R99, R186). A low RST# stays low (log 21). -/
def execPowerOnReset (addr : Bool) (s : State) : Result :=
  .next { s.resetAll with host := { s.host.emptied with address := busAddress addr } }

/-- PIN_RESET: RST# goes low (R42, R100, R175, R186, R194). -/
def execPinReset (s : State) : Result :=
  .next { s.resetKeeping with host := { s.host.emptied with inReset := true } }

/-- PIN_RESET_RELEASE: RST# returns high and ADDR is sampled (R186). -/
def execPinResetRelease (addr : Bool) (s : State) : Result :=
  .next { s with host := { s.host with inReset := false, address := busAddress addr } }

end Sys2Proof.Machine
end

