-- ==== Sys2Proof/Machine/MemoryCommands.lean ====
section
/-! DEFINITION. The host operations on the Profile Memory (spec/04, R90 to R98). -/

namespace Sys2Proof.Machine

/-- PM Lookup (R90). -/
def State.pmLookup (tag : Byte) (vendor product : Half) (s : State) : State :=
  match s.memory.find vendor product with
  | none => s.refuse .notFound tag 0x20
  | some n => s.respond .ok tag 0x20 (s.entryData n)

/-- PM_LOOKUP -/
def execPmLookup (tag : Byte) (vendor product : Half) (s : State) : Result :=
  .next (s.taking (State.pmLookup tag vendor product))

/-- PM Read (R91). -/
def State.pmRead (tag slot : Byte) (s : State) : State :=
  match slotOf slot with
  | none => s.refuse .badParam tag 0x21
  | some n =>
    if (s.entry n).isSome then s.respond .ok tag 0x21 (s.entryData n) else s.refuse .notFound tag 0x21

/-- PM_READ -/
def execPmRead (tag slot : Byte) (s : State) : Result := .next (s.taking (State.pmRead tag slot))

/-- The tally counts of an import (R92, R202). -/
def importTallies (e : ImportBytes) : Tallies where
  l := ⟨e.lAcc.toNat, e.lRej.toNat⟩
  a := ⟨e.aAcc.toNat, e.aRej.toNat⟩
  b := ⟨e.bAcc.toNat, e.bRej.toNat⟩
  h := ⟨e.hAcc.toNat, e.hRej.toNat⟩
  f := ⟨e.fAcc.toNat, e.fRej.toNat⟩

/-- A tally pair within 0 to 15 (R72). -/
def Tally.valid (t : Tally) : Bool := decide (t.acc ≤ 15) && decide (t.rej ≤ 15)

/-- Every count within 0 to 15 (R72, R92). -/
def Tallies.valid (t : Tallies) : Bool := t.l.valid && t.a.valid && t.b.valid && t.h.valid && t.f.valid

/-- The entry an import writes, users 0; `none` where R92 gives BAD_PARAM for its counts or its pin. -/
def importEntry (e : ImportBytes) : Option Entry :=
  match pinOf e.pinned with
  | none => none
  | some pin =>
    if (importTallies e).valid then
      some
        { vendor := e.vendor, product := e.product, release := e.release, pinned := pin,
          tallies := importTallies e, users := 0 }
    else none

/-- An entry replaced in place by an import of the same key: release, pin and tallies are the written ones (R93). -/
def Entry.replacedBy (new old : Entry) : Entry :=
  { old with release := new.release, pinned := new.pinned, tallies := new.tallies }

/-- The entry in a slot has users (R93, R94). -/
def ProfileMemory.inUse (m : ProfileMemory) (n : SlotId) : Bool := (m.entry n).any fun e => decide (0 < e.users)

/-- What a valid PM Write does: the first row of R93 that fits. -/
inductive WriteCase where
  | duplicate
  | inUse
  | replace (n : SlotId)
  | insert (n : SlotId)
  | evict (n : SlotId)
  | full
deriving DecidableEq, Repr

/-- The first row of R93 that fits, for a written key and a target slot if one is named. -/
def ProfileMemory.writeCase (m : ProfileMemory) (vendor product : Half) (target : Option SlotId) : WriteCase :=
  match m.find vendor product, target with
  | some k, some n =>
    if k ≠ n then .duplicate else if m.inUse k then .inUse else .replace k
  | some k, none => if m.inUse k then .inUse else .replace k
  | none, some n => if m.inUse n then .inUse else .insert n
  | none, none =>
    match m.room with
    | .vacant n => .insert n
    | .evict n => .evict n
    | .full => .full

/-- The written entry's record as the response (R93). -/
def State.wrote (s : State) (tag : Byte) (n : SlotId) : State := s.respondWith tag 0x22 (·.entryData n)

/-- A valid PM Write (R93). -/
def State.write (tag : Byte) (e : Entry) (target : Option SlotId) (s : State) : State :=
  match s.memory.writeCase e.vendor e.product target with
  | .duplicate => s.refuse .duplicate tag 0x22
  | .inUse => s.refuse .inUse tag 0x22
  | .replace n => (s.modMemory (·.modEntry n e.replacedBy)).wrote tag n
  | .insert n => (s.modMemory (·.insertTail n e)).wrote tag n
  | .evict n => ((s.modMemory (·.insertTail n e)).raiseDevice .pmEvict).wrote tag n
  | .full => (s.raiseDevice .pmFull).refuse .full tag 0x22

/-- PM Write (R92, R93). -/
def State.pmWrite (tag : Byte) (e : ImportBytes) (s : State) : State :=
  match importEntry e, targetOf e.target with
  | some new, some target => s.write tag new target
  | _, _ => s.refuse .badParam tag 0x22

/-- PM_WRITE -/
def execPmWrite (tag : Byte) (entry : ImportBytes) (s : State) : Result := .next (s.taking (State.pmWrite tag entry))

/-- PM Retire: the first row of R94 that fits. -/
def State.pmRetire (tag : Byte) (vendor product : Half) (s : State) : State :=
  match s.memory.find vendor product with
  | none => s.refuse .notFound tag 0x23
  | some n =>
    if s.memory.inUse n then s.refuse .inUse tag 0x23
    else if (s.entry n).any fun e => e.pinned.isSome then s.refuse .wrongState tag 0x23
    else (s.modMemory (·.vacate n)).respond .ok tag 0x23 [byteOf n.val]

/-- PM_RETIRE -/
def execPmRetire (tag : Byte) (vendor product : Half) (s : State) : Result :=
  .next (s.taking (State.pmRetire tag vendor product))

/-- The pinned signature of an entry becomes the one given; the entry moves to the front; when the pin of an entry in use
changed, the port units are told (R89, R95, R96). -/
def State.setPin (s : State) (n : SlotId) (pin : Option Sig) : State :=
  let s1 := s.modMemory fun m => (m.modEntry n fun e => { e with pinned := pin }).toFront n
  if s.memory.inUse n && (s.entry n).any fun e => e.pinned != pin then s1.tellPinChange n else s1

/-- PM Pin (R95). -/
def State.pmPin (tag : Byte) (vendor product : Half) (signature : Byte) (s : State) : State :=
  match sigOf signature with
  | none => s.refuse .badParam tag 0x24
  | some g =>
    match s.memory.find vendor product with
    | none => s.refuse .notFound tag 0x24
    | some n => (s.setPin n (some g)).respondWith tag 0x24 (·.entryData n)

/-- PM_PIN -/
def execPmPin (tag : Byte) (vendor product : Half) (signature : Byte) (s : State) : Result :=
  .next (s.taking (State.pmPin tag vendor product signature))

/-- PM Unpin (R96). -/
def State.pmUnpin (tag : Byte) (vendor product : Half) (s : State) : State :=
  match s.memory.find vendor product with
  | none => s.refuse .notFound tag 0x25
  | some n => (s.setPin n none).respondWith tag 0x25 (·.entryData n)

/-- PM_UNPIN -/
def execPmUnpin (tag : Byte) (vendor product : Half) (s : State) : Result :=
  .next (s.taking (State.pmUnpin tag vendor product))

/-- An entry that a clear vacates: no users, and no pin unless pinned entries are cleared too (R97). -/
def Entry.cleared (pinsToo : Bool) (e : Entry) : Bool := e.users == 0 && (pinsToo || e.pinned.isNone)

/-- The slots that a clear vacates (R97). -/
def ProfileMemory.clearedSlots (m : ProfileMemory) (pinsToo : Bool) : List SlotId :=
  allSlots.filter fun n => (m.entry n).any (Entry.cleared pinsToo)

/-- What a slot holds after a clear (R97). -/
def slotAfterClear (pinsToo : Bool) (slot : Option Entry) : Option Entry :=
  if slot.any (Entry.cleared pinsToo) then none else slot

/-- Every spare entry vacated in one event; the order count moves once, if any slot was vacated (R82, R97). -/
def ProfileMemory.clear (m : ProfileMemory) (pinsToo : Bool) : ProfileMemory :=
  if m.clearedSlots pinsToo = [] then m
  else
    ({ m with slots := m.slots.map (slotAfterClear pinsToo) }).setRecency
      (m.recency.filter fun n : SlotId => !(m.entry n).any (Entry.cleared pinsToo))

/-- PM Clear (R97). -/
def State.pmClear (tag option : Byte) (s : State) : State :=
  match yesNoOf option with
  | none => s.refuse .badParam tag 0x26
  | some pinsToo =>
    (s.modMemory (·.clear pinsToo)).respondWith tag 0x26 fun t =>
      [byteOf (s.memory.clearedSlots pinsToo).length, byteOf t.memory.entryCount]

/-- PM_CLEAR -/
def execPmClear (tag option : Byte) (s : State) : Result := .next (s.taking (State.pmClear tag option))

/-- The slots of one page of the recency list, 24 to a page (R98). -/
def ProfileMemory.page (m : ProfileMemory) (page : Nat) : List SlotId := (m.recency.drop (24 * page)).take 24

/-- PM Order (R98). -/
def State.pmOrder (tag page : Byte) (s : State) : State :=
  if page.toNat ≤ 1 then
    s.respond .ok tag 0x27
      (halfBytes s.memory.orderCount ++ [byteOf s.memory.recency.length, page]
        ++ (s.memory.page page.toNat).map fun n => byteOf n.val)
  else s.refuse .badParam tag 0x27

/-- PM_ORDER -/
def execPmOrder (tag page : Byte) (s : State) : Result := .next (s.taking (State.pmOrder tag page))

end Sys2Proof.Machine
end

