-- ==== Sys2Proof/Machine/NoticeCommands.lean ====
section
/-! DEFINITION. Read Notices, Ack Notices, Set Notice Mask (spec/09, R181 to R184). -/

namespace Sys2Proof.Machine

/-- Read Notices (R181). -/
def State.readNotices (tag : Byte) (s : State) : State := s.respond .ok tag 0x30 s.noticeData

/-- READ_NOTICES -/
def execReadNotices (tag : Byte) (s : State) : Result := .next (s.taking (State.readNotices tag))

/-- A kind set names no kind outside an allowed one (R182, R184). -/
def kindsWithin (kinds allowed : Half) : Bool := kinds &&& ~~~allowed == 0

/-- The data of Ack Notices: the group, its set and epoch after the command, the kinds removed (R182, R202). -/
def State.ackData (s : State) (g : GroupId) (removed : Half) : List Byte :=
  [byteOf g.val] ++ (s.group g).bytes ++ halfBytes removed

/-- The named kinds leave the group's pending set (R182). -/
def State.clearNotices (s : State) (g : GroupId) (kinds : Half) : State := { s with notices := s.notices.clear g kinds }

/-- An acknowledge whose checks pass: the epoch decides (R182). -/
def State.acknowledge (tag : Byte) (g : GroupId) (kinds : Half) (epoch : Byte) (s : State) : State :=
  if epoch = (s.group g).epoch then
    (s.clearNotices g kinds).respondWith tag 0x31 (·.ackData g (kinds &&& (s.group g).pending))
  else s.respond .stale tag 0x31 (s.ackData g 0)

/-- Ack Notices (R182). -/
def State.ackNotices (tag group : Byte) (kinds : Half) (epoch : Byte) (s : State) : State :=
  match groupOf group with
  | none => s.refuse .badParam tag 0x31
  | some g => if kindsWithin kinds (groupKinds g) then s.acknowledge tag g kinds epoch else s.refuse .badParam tag 0x31

/-- ACK_NOTICES -/
def execAckNotices (tag group : Byte) (kinds : Half) (epoch : Byte) (s : State) : Result :=
  .next (s.taking (State.ackNotices tag group kinds epoch))

/-- The data of Set Notice Mask (R184, R202). -/
def State.maskData (s : State) : List Byte := halfBytes s.notices.mask ++ [yesNo s.notices.alertLow]

/-- Set Notice Mask (R184). -/
def State.setNoticeMask (tag : Byte) (kinds : Half) (s : State) : State :=
  if kindsWithin kinds allKinds then
    { s with notices := s.notices.setMask kinds }.respondWith tag 0x32 State.maskData
  else s.refuse .badParam tag 0x32

/-- SET_NOTICE_MASK -/
def execSetNoticeMask (tag : Byte) (kinds : Half) (s : State) : Result :=
  .next (s.taking (State.setNoticeMask tag kinds))

end Sys2Proof.Machine
end

