-- ==== Sys2Proof/Machine/PortCommands.lean ====
section
/-! DEFINITION. The port commands: Set Policy, Get Policy, Enable Port, Disable Port, Get Port, Post Identity, Retry Trials,
Reset Port (spec/08 R161 to R170, spec/02 R18, R19, R41, spec/05 R102 to R112, spec/03 R67, spec/07 R157). -/

namespace Sys2Proof.Machine

/-- A port command: a port number above 7 gives BAD_PARAM (R18, R19, R41, R67, R102, R157, R163, R170). -/
def State.onPort (s : State) (tag code port : Byte) (f : PortId → State) : State :=
  match portOf port with
  | none => s.refuse .badParam tag code
  | some p => f p

/-! ### Port policy -/

/-- The trial list positions within the given length (R163, R202). -/
def listPositions (r : PolicyBytes) : List Byte :=
  [r.position1, r.position2, r.position3, r.position4, r.position5].take r.listLength.toNat

/-- The signatures of a run of codes; `none` when a code names no letter. -/
def sigsOf : List Byte → Option (List Sig)
  | [] => some []
  | b :: bs =>
    match sigOf b, sigsOf bs with
    | some s, some rest => some (s :: rest)
    | _, _ => none

/-- A trial list is allowed under a maximum: 1 to 5 distinct signatures, none P, none above the maximum (R161, R163). -/
def trialListValid (list : List Sig) (maxSig : Sig) : Bool :=
  !list.isEmpty && decide (list.length ≤ 5) && decide list.Nodup
    && list.all fun s => s != .P && decide (s.rank ≤ maxSig.rank)

/-- A byte lies in a range. -/
def byteWithin (lo hi : Nat) (b : Byte) : Bool := decide (lo ≤ b.toNat) && decide (b.toNat ≤ hi)

/-- The numeric fields of a policy record lie in their ranges (R163). -/
def policyRangesValid (r : PolicyBytes) : Bool :=
  byteWithin 0 3 r.priority && byteWithin 1 5 r.listLength && byteWithin 1 15 r.evaluationWindow
    && byteWithin 1 6 r.holdCode && byteWithin 0 15 r.identityWait && byteWithin 0 7 r.linkTimeout
    && byteWithin 0 31 r.toggleOff && byteWithin 1 7 r.recoveryLimit && byteWithin 0 3 r.faultRetries

/-- The record a Set Policy gives, the enabled field kept; `none` where R163 gives BAD_PARAM. -/
def policyOf (enabled : Bool) (r : PolicyBytes) : Option Policy :=
  match yesNoOf r.fixedDevice, yesNoOf r.upgradeOnRelease, sigOf r.maxSignature, sigsOf (listPositions r) with
  | some fixedDevice, some upgrade, some maxSig, some list =>
    if policyRangesValid r && trialListValid list maxSig then
      some
        { enabled := enabled
          fixedDevice := fixedDevice
          priority := r.priority.toNat
          trialList := list
          maxSig := maxSig
          evaluationWindow := r.evaluationWindow.toNat
          holdCode := r.holdCode.toNat
          identityWait := r.identityWait.toNat
          upgradeOnRelease := upgrade
          powerGood := r.powerGood.toNat
          linkTimeout := r.linkTimeout.toNat
          toggleOff := r.toggleOff.toNat
          recoveryLimit := r.recoveryLimit.toNat
          faultRetries := r.faultRetries.toNat }
    else none
  | _, _, _, _ => none

/-- The port's policy record replaced (R164). -/
def State.writePolicy (s : State) (p : PortId) (r : Policy) : State := s.modPort p fun q => { q with policy := r }

/-- The port's enabled field written (R162). -/
def State.setEnabled (s : State) (p : PortId) (b : Bool) : State :=
  s.modPort p fun q => { q with policy := { q.policy with enabled := b } }

/-- Set Policy (R163, R164). -/
def State.setPolicy (tag port : Byte) (record : PolicyBytes) (s : State) : State :=
  s.onPort tag 0x10 port fun p =>
    match policyOf (s.port p).policy.enabled record with
    | none => s.refuse .badParam tag 0x10
    | some r =>
      if r.fixedDevice ≠ (s.port p).policy.fixedDevice ∧ (s.port p).state ≠ .disabled then
        s.refuse .wrongState tag 0x10
      else (s.writePolicy p r).respondWith tag 0x10 (·.policyData p)

/-- SET_POLICY -/
def execSetPolicy (tag port : Byte) (record : PolicyBytes) (s : State) : Result :=
  .next (s.taking (State.setPolicy tag port record))

/-- Get Policy (R170). -/
def State.getPolicy (tag port : Byte) (s : State) : State :=
  s.onPort tag 0x11 port fun p => s.respond .ok tag 0x11 (s.policyData p)

/-- GET_POLICY -/
def execGetPolicy (tag port : Byte) (s : State) : Result := .next (s.taking (State.getPolicy tag port))

/-! ### Enable and disable -/

/-- A port leaves DISABLED: its base is granted, its kind read from the policy, POWERING entered (R18, R121, R162). -/
def State.enable (s : State) (p : PortId) : State :=
  ((s.setGrant p baseGrant).setEnabled p true |>.modPort p fun q => { q with fixed := q.policy.fixedDevice }).enterPowering p

/-- Enable Port, its checks in the order of R18 and R121. -/
def State.enablePort (tag port : Byte) (s : State) : State :=
  s.onPort tag 0x12 port fun p =>
    if (s.port p).state ≠ .disabled then s.refuse .wrongState tag 0x12
    else if s.budget.pendingTotal.isSome then s.refuse .budgetBusy tag 0x12
    else if s.headroom < baseGrant then s.refuse .noBudget tag 0x12
    else (s.enable p).respondWith tag 0x12 (·.actionData p)

/-- ENABLE_PORT -/
def execEnablePort (tag port : Byte) (s : State) : Result := .next (s.taking (State.enablePort tag port))

/-- A port goes to DISABLED: all its activity ends, its grant becomes 0 and is released (R19, R122, R162). -/
def State.disable (s : State) (p : PortId) : State :=
  (((s.shutDown p 0).modPort p fun q =>
    { q with state := .disabled, tripCount := 0, recoveryCount := 0, quarantine := none }).setEnabled p false).afterRelease

/-- Disable Port (R19, R122). -/
def State.disablePort (tag port : Byte) (s : State) : State :=
  s.onPort tag 0x13 port fun p =>
    if (s.port p).state = .disabled then s.refuse .wrongState tag 0x13
    else (s.disable p).respondWith tag 0x13 (·.actionData p)

/-- DISABLE_PORT -/
def execDisablePort (tag port : Byte) (s : State) : Result := .next (s.taking (State.disablePort tag port))

/-! ### Reading a port -/

/-- Get Port (R41). -/
def State.getPort (tag port : Byte) (s : State) : State :=
  s.onPort tag 0x14 port fun p => s.respond .ok tag 0x14 (s.portData p)

/-- GET_PORT -/
def execGetPort (tag port : Byte) (s : State) : Result := .next (s.taking (State.getPort tag port))

/-! ### Post Identity -/

/-- The seven data bytes of a taken Post Identity (R109, R202). `x` is the session as the command found it, `before` the
state then; the state itself is the one the command left. Bits 3 to 7 of byte 4, assigned to nothing, are sent as 0, which
is the model's choice (log 29). -/
def State.identityData (s : State) (p : PortId) (before : State) (x : Session) (i : Identity) : List Byte :=
  let kind := x.postKind i
  let answer := before.postAnswer x i
  let after := (s.port p).session
  let slot := after.bind (·.boundSlot)
  let folded :=
    match kind, answer with
    | .confirm _, _ => 0
    | _, .full => 0
    | _, .inserted _ => x.toHandOver
    | _, .found n => if (before.entry n).any fun e => e.pinned.isNone then x.toHandOver else 0
  let rebound :=
    match kind with
    | .rebind _ => true
    | .bind => false
    | .confirm _ => false
  halfBytes x.number
    ++ [byteOf (kind.outcome answer), slotCode slot,
      byteOf (bitAt rebound 0 + bitAt (before.postReleaseChange x i) 1 + bitAt (after.any (·.held.isSome)) 2),
      byteOf folded, phaseCode (after.bind (·.shownPhase))]

/-- The status of a taken Post Identity: FULL when its bind was answered FULL (R106, R108). -/
def State.postStatus (s : State) (x : Session) (i : Identity) : Status :=
  match x.postKind i with
  | .confirm _ => .ok
  | .bind => if s.postAnswer x i = .full then .full else .ok
  | .rebind _ => if s.postAnswer x i = .full then .full else .ok

/-- A Post Identity taken for a session (R103 to R112): the binding, then its effect on the trials. -/
def State.takeIdentity (s : State) (p : PortId) (x : Session) (i : Identity) : State :=
  (s.postBinding p x i).postActs p (s.postCalls x i)

/-- The port states in which a Post Identity is taken (R102). -/
def PortState.takesIdentity : PortState → Bool
  | .occupied => true
  | .hold => true
  | .disabled => false
  | .powering => false
  | .idle => false
  | .fault => false
  | .recovery => false
  | .quarantined => false

/-- Post Identity (R102). A port in OCCUPIED or HOLD always has a session; should it have none, the command is refused as in
the other states (log 19). -/
def State.postIdentity (tag port : Byte) (vendor product release : Half) (s : State) : State :=
  s.onPort tag 0x15 port fun p =>
    match (s.port p).state.takesIdentity, (s.port p).session with
    | true, some x =>
      let i : Identity := ⟨vendor, product, release⟩
      let t := s.takeIdentity p x i
      t.respond (s.postStatus x i) tag 0x15 (t.identityData p s x i)
    | _, _ => s.refuse .wrongState tag 0x15

/-- POST_IDENTITY -/
def execPostIdentity (tag port : Byte) (vendor product release : Half) (s : State) : Result :=
  .next (s.taking (State.postIdentity tag port vendor product release))

/-! ### Retry Trials and Reset Port -/

/-- A retry: the shed flag clears, trials have begun, INCONCLUSIVE signatures are judged again, the first step is taken
(R67). -/
def State.retry (s : State) (p : PortId) : State :=
  ((s.modSession p fun x => { x with shed := false, trialsBegun := true }).compute p true).takeStep p

/-- Retry Trials (R67). -/
def State.retryTrials (tag port : Byte) (s : State) : State :=
  s.onPort tag 0x16 port fun p =>
    if (s.port p).state = .occupied ∧ s.phase p = some .steady then
      (s.retry p).respondWith tag 0x16 (·.actionData p)
    else s.refuse .wrongState tag 0x16

/-- RETRY_TRIALS -/
def execRetryTrials (tag port : Byte) (s : State) : Result := .next (s.taking (State.retryTrials tag port))

/-- A port starts afresh through a toggle-off (R157). -/
def State.restart (s : State) (p : PortId) : State :=
  ((s.shutDown p baseGrant).modPort p fun q =>
    { q with
      state := .recovery
      tripCount := 0
      recoveryCount := 0
      quarantine := none
      timers := { q.timers with toggleOff := some (toggleOffTime q.policy.toggleOff) } }).afterRelease

/-- Reset Port (R157). -/
def State.resetPort (tag port : Byte) (s : State) : State :=
  s.onPort tag 0x17 port fun p =>
    if (s.port p).state = .disabled then s.refuse .wrongState tag 0x17
    else (s.restart p).respondWith tag 0x17 (·.actionData p)

/-- RESET_PORT -/
def execResetPort (tag port : Byte) (s : State) : Result := .next (s.taking (State.resetPort tag port))

end Sys2Proof.Machine
end

