-- ==== Sys2Proof/Machine/BusEvents.lean ====
section
/-! DEFINITION. Frames taken and bytes received at the host port (spec/10, R186 to R195). -/

namespace Sys2Proof.Machine

/-- A host command carried out (R193). An event that is no host command is carried in no frame and changes nothing. -/
def State.carryOut (s : State) : Instr → State
  | .getInfo t => s.getInfo t
  | .getDeviceStatus t => s.getDeviceStatus t
  | .setBudget t v => s.setBudget t v
  | .setGlobals t a b => s.setGlobals t a b
  | .getGlobals t => s.getGlobals t
  | .resetDevice t => s.resetDevice t
  | .setPolicy t p r => s.setPolicy t p r
  | .getPolicy t p => s.getPolicy t p
  | .enablePort t p => s.enablePort t p
  | .disablePort t p => s.disablePort t p
  | .getPort t p => s.getPort t p
  | .postIdentity t p v d r => s.postIdentity t p v d r
  | .retryTrials t p => s.retryTrials t p
  | .resetPort t p => s.resetPort t p
  | .pmLookup t v d => s.pmLookup t v d
  | .pmRead t n => s.pmRead t n
  | .pmWrite t e => s.pmWrite t e
  | .pmRetire t v d => s.pmRetire t v d
  | .pmPin t v d g => s.pmPin t v d g
  | .pmUnpin t v d => s.pmUnpin t v d
  | .pmClear t o => s.pmClear t o
  | .pmOrder t g => s.pmOrder t g
  | .readNotices t => s.readNotices t
  | .ackNotices t g k e => s.ackNotices t g k e
  | .setNoticeMask t k => s.setNoticeMask t k
  | .failedFrame _ => s
  | .powerOnReset _ => s
  | .pinReset => s
  | .pinResetRelease _ => s
  | .attnRising _ => s
  | .attnFalling _ => s
  | .hennRising _ => s
  | .hennFalling _ => s
  | .loknRising _ => s
  | .loknFalling _ => s
  | .probeBandEntered _ => s
  | .probeBandLeft _ => s
  | .probeTimerExpiry _ => s
  | .currentReading _ _ => s
  | .rePresentTimerExpiry _ => s
  | .settleExpiry _ => s
  | .identityWaitExpiry _ => s
  | .holdExpiry _ => s
  | .powerGoodExpiry _ => s
  | .evaluationWindowExpiry _ => s
  | .budgetWaitExpiry _ => s
  | .coolDownExpiry _ => s
  | .toggleOffExpiry _ => s
  | .linkTimerExpiry _ => s
  | .addressByteReceived _ => s
  | .dataByteReceived _ => s

/-- The tag and the code that a failed frame's response echoes: as received, 00h for a code that did not arrive (R191). -/
def echoOf : List Byte → Byte × Byte
  | [] => (0, 0)
  | [tag] => (tag, 0)
  | tag :: code :: _ => (tag, code)

/-- A frame is taken (R190, R191): without a data byte it is no frame; one that fails a check writes its status alone; one
that passes is carried out. -/
def State.takeFrame (bytes : List Byte) (s : State) : State :=
  match bytes with
  | [] => s
  | _ :: _ =>
    match decodeFrame bytes with
    | .error st => s.refuse st (echoOf bytes).1 (echoOf bytes).2
    | .ok c => s.carryOut c

/-- FAILED_FRAME (R191; log 18 for bytes that pass the checks) -/
def execFailedFrame (bytes : List Byte) (s : State) : Result := .next (s.taking (State.takeFrame bytes))

/-- A frame that begins with no byte received (R189). -/
def Frame.empty : Frame := ⟨[], none, false⟩

/-- The bytes a frame in assembly holds; none without a frame. -/
def HostPort.assembled (h : HostPort) : List Byte :=
  match h.frame with
  | none => []
  | some f => f.bytes

/-- The START before an address byte ends the transaction before it and takes the frame in assembly (R190, logs 1 and 17). -/
def State.startTaken (s : State) : State := s.takeFrame s.host.assembled

/-- The part's own address in an address byte (R186). -/
def HostPort.matchesAddress (h : HostPort) (b : Byte) : Bool := b.extractLsb' 1 7 == h.address

/-- An address byte after a START: acknowledged on a match, a frame begins for a write (R186, R189). -/
def HostPort.addressed (h : HostPort) (b : Byte) : HostPort :=
  if h.matchesAddress b then
    if b.getLsbD 0 then { h with ack := true, bus := .read, frame := none }
    else { h with ack := true, bus := .write, frame := some Frame.empty }
  else { h with ack := false, bus := .notAddressed, frame := none }

/-- An address byte at the host port (R186, R190). -/
def State.addressByte (b : Byte) (s : State) : State :=
  let t := s.startTaken
  { t with host := t.host.addressed b }

/-- ADDRESS_BYTE_RECEIVED -/
def execAddressByteReceived (b : Byte) (s : State) : Result := .next (s.taking (State.addressByte b))

/-- The acknowledge of the next byte of a frame, by its position (R189). -/
def Frame.acks (f : Frame) (b : Byte) : Bool :=
  match f.declared with
  | none => if f.bytes.length < 2 then true else decide (b.toNat ≤ 32)
  | some l => decide (f.bytes.length < l + 4) && !f.lengthFault

/-- A frame with its next byte: counted up to position L + 4, discarded beyond; the third is the length (R189). -/
def Frame.add (f : Frame) (b : Byte) : Frame :=
  match f.declared with
  | none =>
    if f.bytes.length < 2 then { f with bytes := f.bytes ++ [b] }
    else ⟨f.bytes ++ [b], some b.toNat, decide (32 < b.toNat)⟩
  | some l => if f.bytes.length < l + 4 then { f with bytes := f.bytes ++ [b] } else f

/-- A data byte at the host port (R189); outside a write to the part it takes no part. -/
def HostPort.dataByte (h : HostPort) (b : Byte) : HostPort :=
  match h.bus, h.frame with
  | .write, some f => { h with ack := f.acks b, frame := some (f.add b) }
  | _, _ => { h with ack := false }

/-- A data byte at the host port (R189). -/
def State.dataByte (b : Byte) (s : State) : State := { s with host := s.host.dataByte b }

/-- DATA_BYTE_RECEIVED -/
def execDataByteReceived (b : Byte) (s : State) : Result := .next (s.taking (State.dataByte b))

end Sys2Proof.Machine
end

