-- ==== Sys2Proof/Machine/SenseEvents.lean ====
section
/-! DEFINITION. The sense events of a port: the edges of ATTn, HENn and LOKn, the probe band, the current readings (spec/02
R17, R28 to R35; spec/01 R5, R6; spec/03 R62 to R65; spec/07 R141 to R143, R148, R149). While RST# is held low only the pin
levels are followed (log 7). -/

namespace Sys2Proof.Machine

/-- An event at a port unit, after the levels of its pins: nothing more while the part is held in reset (log 7). -/
def State.running (s : State) (f : State → State) : State := if s.host.inReset then s else f s

/-- ATTn rises: a removable port opens a session in IDLE or re-attaches in HOLD (R17). -/
def State.attachEdge (p : PortId) (s : State) : State :=
  if (s.port p).fixed then s
  else
    match (s.port p).state with
    | .idle => s.openRemovable p
    | .hold => s.returnInHold p
    | .occupied => s
    | .disabled => s
    | .powering => s
    | .fault => s
    | .recovery => s
    | .quarantined => s

/-- ATTN_RISING -/
def execAttnRising (p : PortId) (s : State) : Result :=
  .next ((s.modPins p fun x => { x with att := true }).running (State.attachEdge p))

/-- ATTn falls: a removable port in OCCUPIED goes to HOLD (R17, R31). -/
def State.detachEdge (p : PortId) (s : State) : State :=
  if !(s.port p).fixed && (s.port p).state = .occupied then s.detach p else s

/-- ATTN_FALLING -/
def execAttnFalling (p : PortId) (s : State) : Result :=
  .next ((s.modPins p fun x => { x with att := false }).running (State.detachEdge p))

/-- HENN_RISING (R5, R33, R62, R63) -/
def execHennRising (p : PortId) (s : State) : Result :=
  .next ((s.modPins p fun x => { x with hen := true }).running fun t => t.hubRises p)

/-- HENN_FALLING (R65) -/
def execHennFalling (p : PortId) (s : State) : Result :=
  .next ((s.modPins p fun x => { x with hen := false }).running fun t => t.hubFalls p)

/-- LOKn rises on a fixed port: the recovery-consecutive count becomes 0 and a running link timer stops (R149). -/
def State.linkUp (p : PortId) (s : State) : State :=
  s.modPort p fun q =>
    if q.fixed then { q with recoveryCount := 0, timers := { q.timers with link := none } } else q

/-- LOKN_RISING -/
def execLoknRising (p : PortId) (s : State) : Result :=
  .next ((s.modPins p fun x => { x with lok := true }).running (State.linkUp p))

/-- LOKn falls on a fixed port in OCCUPIED with no resumption window open: the link timer starts (R148, R149). -/
def State.linkDown (p : PortId) (s : State) : State :=
  s.modPort p fun q =>
    if q.fixed && q.state = .occupied && !q.session.any (·.resumptionWindow) then q.startLink else q

/-- LOKN_FALLING -/
def execLoknFalling (p : PortId) (s : State) : Result :=
  .next ((s.modPins p fun x => { x with lok := false }).running (State.linkDown p))

/-- DAn enters the probe band: WATCHING goes to TIMING and the probe timer starts (R6). -/
def Port.probeEnters (q : Port) : Port :=
  if q.detector = .watching then
    { q with detector := .timing, timers := { q.timers with probe := some probeTime } }
  else q

/-- PROBE_BAND_ENTERED -/
def execProbeBandEntered (p : PortId) (s : State) : Result :=
  .next ((s.modPins p fun x => { x with probeBand := true }).running fun t => t.modPort p Port.probeEnters)

/-- DAn leaves the probe band: TIMING and REPLYING go back to WATCHING, the probe timer is cancelled (R6). -/
def Port.probeLeaves (q : Port) : Port :=
  match q.detector with
  | .timing => { q with detector := .watching, timers := { q.timers with probe := none } }
  | .replying => { q with detector := .watching }
  | .off => q
  | .watching => q

/-- PROBE_BAND_LEFT -/
def execProbeBandLeft (p : PortId) (s : State) : Result :=
  .next ((s.modPins p fun x => { x with probeBand := false }).running fun t => t.modPort p Port.probeLeaves)

/-- A reading at a port unit (R141): the accumulators first, then the comparison. -/
def State.reading (p : PortId) (mA : Nat) (s : State) : State :=
  let s1 := s.modPort p fun q => q.takeReading mA
  if (s.port p).state.compared then s1.compareReading p mA else s1

/-- CURRENT_READING -/
def execCurrentReading (p : PortId) (reading : Nat) (s : State) : Result :=
  .next (s.running (State.reading p (delivered reading)))

end Sys2Proof.Machine
end

