-- ==== Sys2Proof/Machine/TimerEvents.lean ====
section
/-! DEFINITION. The timer expiries (spec/00 section 0.9, and the rule each names). An expiry whose timer does not run does not
happen: it changes nothing (log 2). A timer that expires has stopped, whatever follows. -/

namespace Sys2Proof.Machine

/-- An expiry of a port's timer: nothing when the timer does not run, else the timer stops and the effect follows. -/
def State.expire (s : State) (p : PortId) (left : Option Nat) (stop : Timers → Timers) (f : State → State) : State :=
  match left with
  | none => s
  | some _ => f (s.modTimers p stop)

/-- The timers of a port. -/
def State.timers (s : State) (p : PortId) : Timers := (s.port p).timers

/-- TIMING goes to REPLYING, and the probe-seen flag of an open session is set (R6, R8). -/
def Port.probeHeld (q : Port) : Port :=
  if q.detector = .timing then
    { q with detector := .replying, session := q.session.map fun x => { x with probeSeen := true } }
  else q

/-- PROBE_TIMER_EXPIRY -/
def execProbeTimerExpiry (p : PortId) (s : State) : Result :=
  .next (s.expire p (s.timers p).probe (fun t => { t with probe := none }) fun u => u.modPort p Port.probeHeld)

/-- RE_PRESENT_TIMER_EXPIRY (R12): the timer runs exactly while a re-present is in flight. -/
def execRePresentTimerExpiry (p : PortId) (s : State) : Result :=
  match (s.port p).rePresent with
  | none => .next s
  | some r => .next (s.rePresentEnd p r)

/-- SETTLE_EXPIRY (R29) -/
def execSettleExpiry (p : PortId) (s : State) : Result :=
  .next (s.expire p (s.timers p).settle (fun t => { t with settle := none }) fun u =>
    if u.phase p = some .settling then u.settleEnd p else u)

/-- IDENTITY_WAIT_EXPIRY (R30) -/
def execIdentityWaitExpiry (p : PortId) (s : State) : Result :=
  .next (s.expire p (s.timers p).identityWait (fun t => { t with identityWait := none }) fun u =>
    if u.phase p = some .identifying then u.beginTrials p else u)

/-- HOLD_EXPIRY (R36) -/
def execHoldExpiry (p : PortId) (s : State) : Result :=
  .next (s.expire p (s.timers p).hold (fun t => { t with hold := none }) fun u =>
    if (u.port p).state = .hold then u.holdEnd p else u)

/-- POWER_GOOD_EXPIRY (R20) -/
def execPowerGoodExpiry (p : PortId) (s : State) : Result :=
  .next (s.expire p (s.timers p).powerGood (fun t => { t with powerGood := none }) fun u =>
    if (u.port p).state = .powering then u.powerGoodEnd p else u)

/-- The end of a window in EVALUATING (R56). -/
def State.windowEnd (p : PortId) (s : State) : State :=
  match (s.port p).session with
  | none => s
  | some x =>
    match x.phase, x.judged with
    | some .evaluating, some sig => s.judge p x sig
    | _, _ => s

/-- EVALUATION_WINDOW_EXPIRY -/
def execEvaluationWindowExpiry (p : PortId) (s : State) : Result :=
  .next (s.expire p (s.timers p).evaluation (fun t => { t with evaluation := none }) (State.windowEnd p))

/-- A queue entry's wait expires: it is withdrawn, the queue is served, the port skips the signature (R130, R52). -/
def State.waitEnd (p : PortId) (s : State) : State :=
  if s.queued p then ((s.withdraw p).afterRelease).nextStep p else s

/-- BUDGET_WAIT_EXPIRY -/
def execBudgetWaitExpiry (p : PortId) (s : State) : Result := .next (s.waitEnd p)

/-- The cool-down's decision (R146). -/
def State.coolDownEnd (p : PortId) (s : State) : State :=
  if (s.port p).tripCount ≤ (s.port p).policy.faultRetries then s.enterPowering p else s.overcurrentQuarantine p

/-- COOL_DOWN_EXPIRY -/
def execCoolDownExpiry (p : PortId) (s : State) : Result :=
  .next (s.expire p (s.timers p).coolDown (fun t => { t with coolDown := none }) fun u =>
    if (u.port p).state = .fault then u.coolDownEnd p else u)

/-- TOGGLE_OFF_EXPIRY (R152) -/
def execToggleOffExpiry (p : PortId) (s : State) : Result :=
  .next (s.expire p (s.timers p).toggleOff (fun t => { t with toggleOff := none }) fun u =>
    if (u.port p).state = .recovery then u.enterPowering p else u)

/-- The link timer's decision (R150). -/
def State.linkEnd (p : PortId) (s : State) : State :=
  if (s.port p).recoveryCount < (s.port p).policy.recoveryLimit then s.enterRecovery p else s.linkQuarantine p

/-- LINK_TIMER_EXPIRY: only a fixed port in OCCUPIED has a link timer (R148). -/
def execLinkTimerExpiry (p : PortId) (s : State) : Result :=
  .next (s.expire p (s.timers p).link (fun t => { t with link := none }) fun u =>
    if (u.port p).fixed && (u.port p).state = .occupied then u.linkEnd p else u)

end Sys2Proof.Machine
end

