-- ==== Sys2Proof/Machine/Dispatch.lean ====
section
/-! DEFINITION. One arm per command: its meaning on everything but the queue. -/

namespace Sys2Proof.Machine

def exec (i : Instr) (s : State) : Host.Outcome State Fault Refusal :=
  match i with
  | .getInfo tag => Sys2Proof.Machine.execGetInfo tag s
  | .getDeviceStatus tag => Sys2Proof.Machine.execGetDeviceStatus tag s
  | .setBudget tag total => Sys2Proof.Machine.execSetBudget tag total s
  | .setGlobals tag threshold waitLimit => Sys2Proof.Machine.execSetGlobals tag threshold waitLimit s
  | .getGlobals tag => Sys2Proof.Machine.execGetGlobals tag s
  | .resetDevice tag => Sys2Proof.Machine.execResetDevice tag s
  | .setPolicy tag port record => Sys2Proof.Machine.execSetPolicy tag port record s
  | .getPolicy tag port => Sys2Proof.Machine.execGetPolicy tag port s
  | .enablePort tag port => Sys2Proof.Machine.execEnablePort tag port s
  | .disablePort tag port => Sys2Proof.Machine.execDisablePort tag port s
  | .getPort tag port => Sys2Proof.Machine.execGetPort tag port s
  | .postIdentity tag port vendor product release => Sys2Proof.Machine.execPostIdentity tag port vendor product release s
  | .retryTrials tag port => Sys2Proof.Machine.execRetryTrials tag port s
  | .resetPort tag port => Sys2Proof.Machine.execResetPort tag port s
  | .pmLookup tag vendor product => Sys2Proof.Machine.execPmLookup tag vendor product s
  | .pmRead tag slot => Sys2Proof.Machine.execPmRead tag slot s
  | .pmWrite tag entry => Sys2Proof.Machine.execPmWrite tag entry s
  | .pmRetire tag vendor product => Sys2Proof.Machine.execPmRetire tag vendor product s
  | .pmPin tag vendor product signature => Sys2Proof.Machine.execPmPin tag vendor product signature s
  | .pmUnpin tag vendor product => Sys2Proof.Machine.execPmUnpin tag vendor product s
  | .pmClear tag option => Sys2Proof.Machine.execPmClear tag option s
  | .pmOrder tag page => Sys2Proof.Machine.execPmOrder tag page s
  | .readNotices tag => Sys2Proof.Machine.execReadNotices tag s
  | .ackNotices tag group kinds epoch => Sys2Proof.Machine.execAckNotices tag group kinds epoch s
  | .setNoticeMask tag kinds => Sys2Proof.Machine.execSetNoticeMask tag kinds s
  | .failedFrame bytes => Sys2Proof.Machine.execFailedFrame bytes s
  | .powerOnReset addr => Sys2Proof.Machine.execPowerOnReset addr s
  | .pinReset => Sys2Proof.Machine.execPinReset s
  | .pinResetRelease addr => Sys2Proof.Machine.execPinResetRelease addr s
  | .attnRising port => Sys2Proof.Machine.execAttnRising port s
  | .attnFalling port => Sys2Proof.Machine.execAttnFalling port s
  | .hennRising port => Sys2Proof.Machine.execHennRising port s
  | .hennFalling port => Sys2Proof.Machine.execHennFalling port s
  | .loknRising port => Sys2Proof.Machine.execLoknRising port s
  | .loknFalling port => Sys2Proof.Machine.execLoknFalling port s
  | .probeBandEntered port => Sys2Proof.Machine.execProbeBandEntered port s
  | .probeBandLeft port => Sys2Proof.Machine.execProbeBandLeft port s
  | .probeTimerExpiry port => Sys2Proof.Machine.execProbeTimerExpiry port s
  | .currentReading port reading => Sys2Proof.Machine.execCurrentReading port reading s
  | .rePresentTimerExpiry port => Sys2Proof.Machine.execRePresentTimerExpiry port s
  | .settleExpiry port => Sys2Proof.Machine.execSettleExpiry port s
  | .identityWaitExpiry port => Sys2Proof.Machine.execIdentityWaitExpiry port s
  | .holdExpiry port => Sys2Proof.Machine.execHoldExpiry port s
  | .powerGoodExpiry port => Sys2Proof.Machine.execPowerGoodExpiry port s
  | .evaluationWindowExpiry port => Sys2Proof.Machine.execEvaluationWindowExpiry port s
  | .budgetWaitExpiry port => Sys2Proof.Machine.execBudgetWaitExpiry port s
  | .coolDownExpiry port => Sys2Proof.Machine.execCoolDownExpiry port s
  | .toggleOffExpiry port => Sys2Proof.Machine.execToggleOffExpiry port s
  | .linkTimerExpiry port => Sys2Proof.Machine.execLinkTimerExpiry port s
  | .addressByteReceived byte => Sys2Proof.Machine.execAddressByteReceived byte s
  | .dataByteReceived byte => Sys2Proof.Machine.execDataByteReceived byte s

end Sys2Proof.Machine
end

