-- ==== Sys2Proof/Machine/Clock.lean ====
section
/-! DEFINITION. What the part does by itself while no command waits: its timers run, 5 ms at a time, and expire (spec/00
section 0.9; log 2). -/

namespace Sys2Proof.Machine

/-- A timer that runs with no time left. -/
def due (left : Option Nat) : Bool := left = some 0

/-- A timer 5 ms later. -/
def runDown (left : Option Nat) : Option Nat := left.map (· - 1)

/-- An event in the list when its timer is due. -/
def dueEvent (left : Option Nat) (e : Instr) : List Instr := if due left then [e] else []

/-- The expiries of a port unit that have come due. -/
def Port.dueEvents (p : PortId) (q : Port) : List Instr :=
  dueEvent (q.rePresent.map (·.left)) (.rePresentTimerExpiry p)
    ++ dueEvent q.timers.settle (.settleExpiry p)
    ++ dueEvent q.timers.identityWait (.identityWaitExpiry p)
    ++ dueEvent q.timers.hold (.holdExpiry p)
    ++ dueEvent q.timers.powerGood (.powerGoodExpiry p)
    ++ dueEvent q.timers.evaluation (.evaluationWindowExpiry p)
    ++ dueEvent q.timers.probe (.probeTimerExpiry p)
    ++ dueEvent q.timers.coolDown (.coolDownExpiry p)
    ++ dueEvent q.timers.toggleOff (.toggleOffExpiry p)
    ++ dueEvent q.timers.link (.linkTimerExpiry p)

/-- The expiry of a queue entry's wait timer, when it has come due (R130). -/
def QueueEntry.dueEvents (e : QueueEntry) : List Instr := dueEvent (some e.left) (.budgetWaitExpiry e.port)

/-- Every expiry that has come due. -/
def State.dueEvents (s : State) : List Instr :=
  (allPorts.flatMap fun p => (s.port p).dueEvents p) ++ s.budget.queue.flatMap (·.dueEvents)

/-- The timers of a port 5 ms later. -/
def Timers.tick (t : Timers) : Timers where
  settle := runDown t.settle
  identityWait := runDown t.identityWait
  hold := runDown t.hold
  powerGood := runDown t.powerGood
  evaluation := runDown t.evaluation
  probe := runDown t.probe
  coolDown := runDown t.coolDown
  toggleOff := runDown t.toggleOff
  link := runDown t.link

/-- A port unit 5 ms later. -/
def Port.tick (q : Port) : Port :=
  { q with
    timers := q.timers.tick
    rePresent := q.rePresent.map fun r => { r with left := r.left - 1 } }

/-- The part 5 ms later, no timer due. -/
def State.tick (s : State) : State :=
  { s with
    ports := s.ports.map Port.tick
    budget := { s.budget with queue := s.budget.queue.map fun e => { e with left := e.left - 1 } } }

/-- One step of the part while no command waits: an expiry that is due happens, one of several chosen freely (log 3); with
none due, 5 ms pass. -/
def State.runClock (s : State) : Result :=
  match s.dueEvents with
  | [] => .next s.tick
  | [e] => exec e s
  | list =>
    match s.freeChoice list with
    | some e => exec e s.spendChoice
    | none => .next s.spendChoice

end Sys2Proof.Machine
end

