-- ==== Sys2Proof/Machine/Step.lean ====
section
/-! DEFINITION. One step of the part: the command at the front of the queue, or the part's own clock when none waits. -/

namespace Sys2Proof.Machine

/-- One step. A command at the front of the queue is taken and carried out on the rest (R193). With none waiting, the clock
runs (log 2). -/
def step (s : State) : Host.Outcome State Fault Refusal :=
  match s.pending with
  | c :: rest => exec c { s with pending := rest }
  | [] => s.runClock

/-- The command that a table word spells at the front of the queue; the state unchanged when the word spells none, which is
every word here (log 24). -/
def State.withFetchWord (s : State) (nbits w : Nat) : State :=
  match Sys2Proof.decodeTableWord nbits w with
  | some c => { s with pending := c :: s.pending }
  | none => s

end Sys2Proof.Machine
end

