-- ==== Sys2Proof/Safety.lean ====
section
/-! DEFINITION. What the statements are made of: the laws that every step keeps, and the parts of the state that a command
leaves alone. -/

namespace Sys2Proof.Machine

/-! ### Laws -/

/-- R2, R4, R16 for one port: the switch follows the state; with it off the lines are neutral, nothing is in flight and the
overcurrent mark is clear; the hub and a charge-only signature never share the lines; a re-present shows neutral lines. -/
def Port.linesLaw (q : Port) : Prop :=
  q.switchOn = q.state.isOn
    ∧ (q.switchOn = false → q.presented = none ∧ q.rePresent = none ∧ q.overcurrent = false)
    ∧ (q.pins.hen = true → (∀ c, q.presented = some c → c.chargeOnly = false)
        ∧ ∀ r, q.rePresent = some r → r.target.chargeOnly = false)
    ∧ (q.rePresent.isSome = true → q.presented = none)

/-- The lines of every port; while RST# is held low every port is DISABLED (R42). -/
def LinesLaw (s : State) : Prop :=
  (∀ p, (s.port p).linesLaw) ∧ (s.host.inReset = true → ∀ p, (s.port p).state = .disabled)

/-- R6, R7 for one port: the detector is on exactly while A is presented, its timer runs exactly in TIMING. -/
def Port.probeLaw (q : Port) : Prop :=
  (q.detector ≠ .off ↔ q.presented = some .A) ∧ (q.timers.probe.isSome = true ↔ q.detector = .timing)

/-- The probe detector of every port. -/
def ProbeLaw (s : State) : Prop := ∀ p, (s.port p).probeLaw

/-- R175, R176, R179: ALERT# is low exactly while an unmasked kind is pending, each group holds kinds of its class, the mask
holds kinds that exist. -/
def NoticeLaw (s : State) : Prop :=
  s.notices.alertLow = s.notices.unmaskedPending
    ∧ (∀ g, (s.group g).pending &&& ~~~groupKinds g = 0)
    ∧ s.notices.mask &&& ~~~allKinds = 0

/-- R71, R72, R80: the recency list holds every non-vacant slot once, no key is held twice, every count is at most 15. -/
def ProfileMemory.law (m : ProfileMemory) : Prop :=
  m.recency.Nodup
    ∧ (∀ n, n ∈ m.recency ↔ (m.entry n).isSome = true)
    ∧ (∀ n k e f, m.entry n = some e → m.entry k = some f → e.vendor = f.vendor → e.product = f.product → n = k)
    ∧ ∀ n e, m.entry n = some e → e.tallies.valid = true

/-- The law of the Profile Memory. -/
def MemoryLaw (s : State) : Prop := s.memory.law

/-- R16, R22, R38 for one port: when it holds a session, and whether the session is in a phase, held or suspended. -/
def Port.sessionLaw (q : Port) : Prop :=
  match q.state, q.session with
  | .disabled, x => x = none
  | .idle, x => x = none
  | .fault, x => x = none
  | .quarantined, x => x = none
  | .powering, none => True
  | .powering, some x => q.fixed = true ∧ x.phase = none ∧ x.held = none
  | .recovery, none => True
  | .recovery, some x => q.fixed = true ∧ x.phase = none ∧ x.held = none
  | .occupied, none => False
  | .occupied, some x => x.phase.isSome = true ∧ x.held = none
  | .hold, none => False
  | .hold, some x => x.phase = none ∧ x.held.isSome = true

/-- The sessions of every port. -/
def SessionLaw (s : State) : Prop := ∀ p, (s.port p).sessionLaw

/-- R126: one entry per port, and an entry exactly while the port's session phase is WAITING_BUDGET. -/
def QueueLaw (s : State) : Prop :=
  (s.budget.queue.map (·.port)).Nodup ∧ ∀ p, s.queued p = true ↔ s.phase p = some .waitingBudget

/-- The ports of the victim set, in ascending order. -/
def State.victimList (s : State) : List PortId := allPorts.filter fun p => s.victim p

/-- R118, R119, R134: the grants fit the total in effect; a disabled port holds 0, another 500 to 2400 mA; while a change is
pending the grants, each victim counted at 500 mA, fit the pending total. -/
def GrantLaw (s : State) : Prop :=
  s.sumGrants ≤ s.budget.total
    ∧ totalValid s.budget.total = true
    ∧ (∀ p, (s.port p).state = .disabled → s.grant p = 0)
    ∧ (∀ p, (s.port p).state ≠ .disabled → 500 ≤ s.grant p ∧ s.grant p ≤ 2400)
    ∧ ∀ total, s.budget.pendingTotal = some total →
        totalValid total = true ∧ s.countedSum s.victimList ≤ total

/-- R128, R129, R134, R137, R138: a total is pending exactly while some port is in the victim set, every victim holds more than
500 mA, and with no total pending the head of the queue needs more than the headroom. Every release event keeps it by serving
the queue, or by completing the change when the last victim has released. -/
def ServiceLaw (s : State) : Prop :=
  (s.budget.pendingTotal.isSome = true ↔ ∃ p, s.victim p = true)
    ∧ (∀ p, s.victim p = true → 500 < s.grant p)
    ∧ (s.budget.pendingTotal = none → ∀ e, s.budget.queue.head? = some e → s.headroom < s.need e.port e.sig)

/-- R12, R119 for one port and its grant: the signature presented, the one a re-present heads for and the one kept through
link recovery offer no more than the grant; neutral lines in RECOVERY and POWERING. -/
def Port.coverLaw (q : Port) (grant : Nat) : Prop :=
  (∀ c, q.presented = some c → c.offered ≤ grant)
    ∧ (∀ r, q.rePresent = some r → r.target.offered ≤ grant ∧ ∀ c, r.starting = some c → c.offered ≤ grant)
    ∧ (q.state = .powering → q.presented = none ∧ q.rePresent = none)
    ∧ ∀ x, q.session = some x → x.suspended = true → ∀ c, x.presented = some c → c.offered ≤ grant

/-- Every port's grant covers what it offers. -/
def CoverLaw (s : State) : Prop := ∀ p, (s.port p).coverLaw (s.grant p)

/-- R123, R126: every queue entry waits for more than its port's grant. -/
def NeedLaw (s : State) : Prop := ∀ e, e ∈ s.budget.queue → s.grant e.port < e.sig.offered

/-- R14, R16, R26, R124 for one port and its grant: a letter presented with nothing in flight offers exactly the grant; a port
without a session that is off or on its way to P holds the base. -/
def Port.exactLaw (q : Port) (grant : Nat) : Prop :=
  (∀ c, q.presented = some c → q.rePresent = none → c.offered = grant)
    ∧ (q.session = none →
        q.state = .powering ∨ q.state = .recovery ∨ q.state = .fault ∨ q.state = .quarantined → grant = 500)

/-- Every port's grant is what it offers when its lines rest. -/
def ExactLaw (s : State) : Prop := ∀ p, (s.port p).exactLaw (s.grant p)

/-- The ports whose sessions are bound to a slot, counted. -/
def State.boundCount (s : State) (n : SlotId) : Nat := (s.boundPorts n).length

/-- R73: the user count of an entry is the number of sessions bound to it, and a bound slot holds an entry. -/
def UsersLaw (s : State) : Prop :=
  (∀ n e, s.entry n = some e → e.users = s.boundCount n)
    ∧ ∀ p x n, (s.port p).session = some x → x.boundSlot = some n → (s.entry n).isSome = true

/-- R161: the ranges of a port policy record. -/
def Policy.inRange (r : Policy) : Prop :=
  r.priority ≤ 3 ∧ trialListValid r.trialList r.maxSig = true
    ∧ (1 ≤ r.evaluationWindow ∧ r.evaluationWindow ≤ 15) ∧ (1 ≤ r.holdCode ∧ r.holdCode ≤ 6) ∧ r.identityWait ≤ 15
    ∧ r.powerGood ≤ 255 ∧ r.linkTimeout ≤ 7 ∧ r.toggleOff ≤ 31 ∧ (1 ≤ r.recoveryLimit ∧ r.recoveryLimit ≤ 7)
    ∧ r.faultRetries ≤ 3

/-- R161, R162, R171: every policy record and both global settings lie in their ranges; a port is enabled exactly outside
DISABLED. -/
def PolicyLaw (s : State) : Prop :=
  (∀ p, (s.port p).policy.inRange ∧ ((s.port p).policy.enabled = true ↔ (s.port p).state ≠ .disabled))
    ∧ (2 ≤ s.memory.threshold ∧ s.memory.threshold ≤ 7) ∧ (1 ≤ s.budget.waitLimit ∧ s.budget.waitLimit ≤ 15)

/-! ### What the rules list -/

/-- The code a Set Policy sends at a position of its trial list, the first being 0 (R202). -/
def sentPosition (r : PolicyBytes) (i : Nat) : Byte :=
  [r.position1, r.position2, r.position3, r.position4, r.position5].getD i 0

/-- The checks of R163 on the record a Set Policy sends, in the rule's order. -/
def recordPasses (r : PolicyBytes) : Prop :=
  r.fixedDevice.toNat ≤ 1 ∧ r.upgradeOnRelease.toNat ≤ 1 ∧ r.priority.toNat ≤ 3
    ∧ (1 ≤ r.listLength.toNat ∧ r.listLength.toNat ≤ 5)
    ∧ (1 ≤ r.maxSignature.toNat ∧ r.maxSignature.toNat ≤ 6)
    ∧ (∀ i : Fin 5, i.val < r.listLength.toNat →
        2 ≤ (sentPosition r i).toNat ∧ (sentPosition r i).toNat ≤ 6 ∧ (sentPosition r i).toNat ≤ r.maxSignature.toNat
          ∧ ∀ j : Fin 5, j < i → sentPosition r j ≠ sentPosition r i)
    ∧ (1 ≤ r.evaluationWindow.toNat ∧ r.evaluationWindow.toNat ≤ 15) ∧ (1 ≤ r.holdCode.toNat ∧ r.holdCode.toNat ≤ 6)
    ∧ r.identityWait.toNat ≤ 15 ∧ r.linkTimeout.toNat ≤ 7 ∧ r.toggleOff.toNat ≤ 31
    ∧ (1 ≤ r.recoveryLimit.toNat ∧ r.recoveryLimit.toNat ≤ 7) ∧ r.faultRetries.toNat ≤ 3

/-- The record held is the one a Set Policy sent (R164). -/
def Policy.isSent (n : Policy) (r : PolicyBytes) : Prop :=
  r.fixedDevice = yesNo n.fixedDevice ∧ r.upgradeOnRelease = yesNo n.upgradeOnRelease ∧ n.priority = r.priority.toNat
    ∧ n.trialList.length = r.listLength.toNat
    ∧ (∀ i : Fin 5, ∀ g, n.trialList[i.val]? = some g → g.rank = (sentPosition r i).toNat)
    ∧ n.maxSig.rank = r.maxSignature.toNat ∧ n.evaluationWindow = r.evaluationWindow.toNat
    ∧ n.holdCode = r.holdCode.toNat ∧ n.identityWait = r.identityWait.toNat ∧ n.powerGood = r.powerGood.toNat
    ∧ n.linkTimeout = r.linkTimeout.toNat ∧ n.toggleOff = r.toggleOff.toNat ∧ n.recoveryLimit = r.recoveryLimit.toNat
    ∧ n.faultRetries = r.faultRetries.toNat

/-- The sessions in which a computation call sets the recompute-due mark: R110 and R112 in OCCUPIED, R111 in HOLD, R152 while
suspended. -/
def Port.marksDue (q : Port) (x : Session) : Prop :=
  (q.state = .occupied ∧
      (x.phase = some .evaluating ∨ x.phase = some .waitingBudget
        ∨ (x.phase = some .representing
            ∧ (x.current ≠ none ∨ q.requester = some .sequencer ∨ q.requester = some .resumption))))
    ∨ (q.state = .hold ∧
      (x.held = some .evaluating ∨ x.held = some .waitingBudget
        ∨ (x.held = some .representing ∧ (x.current ≠ none ∨ q.requester = some .sequencer))))
    ∨ q.state = .recovery ∨ q.state = .powering

/-- The mode a computation samples (R25, R47). -/
def Port.modeNow (q : Port) : Mode := if q.pins.hen then .data else .charge

/-- A session in the middle of its steps: the current step and the remaining ones, in order (R43). -/
def Session.steps (x : Session) : List TrialStep := x.current.toList ++ x.remaining

/-- At rest on a letter: it is presented and nothing is in flight. -/
def Port.shows (q : Port) (g : Sig) : Bool := q.rePresent.isNone && q.presented == some g

/-- A session that has just taken the first step of a sequence, on a port and grant as the step found them (R49, R50, R54).
An empty sequence gives STEADY when P is shown and REPRESENTING otherwise. A head already shown gives STEADY when it is a
PRESENT step and EVALUATING when it is an EVALUATE step, any other head REPRESENTING; a head above the grant may wait for
budget instead. -/
def Session.took (y : Session) (q : Port) (grant : Nat) (steps : List TrialStep) : Bool :=
  match steps.head? with
  | none => y.steps == [] && y.phase == some (if q.shows .P then .steady else .representing)
  | some st =>
    (decide (grant < st.sig.offered) && y.phase == some .waitingBudget && y.steps == steps)
      || (if q.shows st.sig then
            (if st.kind = .present then y.phase == some .steady && y.steps == []
             else y.phase == some .evaluating && y.steps == steps)
          else y.phase == some .representing && y.steps == steps)

/-- The re-aim test of R68 on the steps computed for a session that rests on a port. -/
def State.aims (s : State) (y : Session) (q : Port) (steps : List TrialStep) : Bool :=
  match y.boundSlot.bind s.entry, steps.head? with
  | some e, some st =>
    if e.pinned.isSome then e.pinned != q.presented
    else e.state s.memory.threshold == .settled && q.presented.any fun c => decide (c.rank < st.sig.rank)
  | _, _ => false

/-- A session that was STEADY with the shed flag clear, after its computation call: the first step taken when the re-aim test
passes, STEADY with nothing remaining otherwise (R68, R110). -/
def Session.reAimed (y : Session) (t : State) (q : Port) (grant : Nat) : Bool :=
  y.mode == q.modeNow && !y.recomputeDue &&
    (if t.aims y q (t.computedSteps false q.modeNow y) then y.took q grant (t.computedSteps false q.modeNow y)
     else y.phase == some .steady && y.remaining == [])

/-- What a computation call in OCCUPIED, HOLD or a suspension does to a port's session (R110 to R112): the mark set where a
step is in flight, the re-aim test in STEADY with the shed flag clear, nothing in STEADY with it set. -/
def CallMade (s t : State) (p : PortId) (x : Session) : Prop :=
  ((s.port p).marksDue x → ((t.port p).session.any (·.recomputeDue)) = true)
    ∧ ((s.port p).state = .occupied → x.phase = some .steady → (s.port p).presented = x.presented →
        (x.shed = false → ((t.port p).session.any fun y => y.reAimed t (s.port p) (s.grant p)) = true)
          ∧ (x.shed = true → (t.port p).presented = (s.port p).presented ∧ t.phase p = some .steady))

/-- The memory a bind request of a Post Identity meets: at a rebind, with the old entry given up (R104, R108 step 1). -/
def State.memoryForBind (s : State) (x : Session) : ProfileMemory :=
  match x.boundSlot with
  | none => s.memory
  | some j => s.memory.modEntry j fun e => { e with users := e.users - 1 }

/-- The verdicts a binding hands over: ACCEPTED or REJECTED and not folded (R105). -/
def Session.pendingVerdicts (x : Session) : List VerdictEntry :=
  x.verdicts.filter fun w => w.verdict ≠ .inconclusive && !w.folded

/-- The verdict list after a binding: the verdicts handed over are marked folded (R105). -/
def Session.verdictsFolded (x : Session) : List VerdictEntry :=
  x.verdicts.map fun w => if w.verdict = .inconclusive then w else { w with folded := true }

/-- Tallies with verdicts folded into them, oldest first (R77, R105). -/
def Tallies.foldAll (t : Tallies) (list : List VerdictEntry) : Tallies :=
  list.foldl (fun a w => a.modify (Tally.fold (w.verdict = .accepted)) w.sig) t

/-- The seven bytes of a taken Post Identity's response (R109, R202): the session acted on, the outcome, the slot, the
rebound, release-change and held bits, the verdicts folded, and the phase in the state the command left. The bits of byte 4
assigned to nothing are 0 (log 29). -/
def State.postBytes (t : State) (p : PortId) (x : Session) (outcome slot : Byte) (rebound release : Bool) (folded : Nat) :
    List Byte :=
  [hiByte x.number, loByte x.number, outcome, slot,
    BitVec.ofNat 8 ((if rebound then 1 else 0) + (if release then 2 else 0) + (if (t.port p).state = .hold then 4 else 0)),
    BitVec.ofNat 8 folded, phaseCode (if (t.port p).state = .hold then t.heldPhase p else t.phase p)]

/-! ### Frames -/

/-- Everything but the response slot, the frame in assembly and the bus transaction is the same. -/
def SameBlocks (s t : State) : Prop :=
  t.ports = s.ports ∧ t.budget = s.budget ∧ t.memory = s.memory ∧ t.notices = s.notices
    ∧ t.freeCount = s.freeCount ∧ t.pending = s.pending
    ∧ t.host.address = s.host.address ∧ t.host.inReset = s.host.inReset ∧ t.host.ack = s.host.ack

/-- The response slot holds this response (R194). -/
def Replied (t : State) (st : Status) (tag code : Byte) (data : List Byte) : Prop :=
  t.host.response = some { status := st, tag := tag, code := code, data := data }

/-- One raise of a kind in a group, whatever else happened (R177). -/
def RaisedIn (s t : State) (g : GroupId) (k : Kind) : Prop :=
  (t.group g).pending = (s.group g).pending ||| k.mask ∧ (t.group g).epoch = (s.group g).epoch + 1

/-- The rest of the part after an event or a command at one port: the waiting commands, the mask, the settings, the pins and
the policy records of the other ports, and every other port that does not wait for budget (R128, R129). -/
def OthersKept (p : PortId) (s t : State) : Prop :=
  t.pending = s.pending ∧ t.freeCount = s.freeCount ∧ t.notices.mask = s.notices.mask
    ∧ t.memory.threshold = s.memory.threshold ∧ t.budget.waitLimit = s.budget.waitLimit
    ∧ (∀ q, q ≠ p → (t.port q).pins = (s.port q).pins ∧ (t.port q).policy = (s.port q).policy)
    ∧ ∀ q, q ≠ p → s.queued q = false →
        t.port q = s.port q ∧ t.grant q = s.grant q ∧ t.group (portGroup q) = s.group (portGroup q)

/-- The values of a port unit after any reset (R42, R160, R161); the pins are inputs. -/
def Port.isReset (q : Port) : Prop :=
  q.state = .disabled ∧ q.switchOn = false ∧ q.presented = none ∧ q.rePresent = none ∧ q.detector = .off
    ∧ q.quarantine = none ∧ q.session = none ∧ q.counter = 0 ∧ q.tripCount = 0 ∧ q.recoveryCount = 0 ∧ q.latest = 0
    ∧ q.fixed = false ∧ q.overcurrent = false
    ∧ q.timers = { settle := none, identityWait := none, hold := none, powerGood := none, evaluation := none,
                   probe := none, coolDown := none, toggleOff := none, link := none }
    ∧ q.policy = { enabled := false, fixedDevice := false, priority := 1, trialList := [.F, .H, .B, .A, .L], maxSig := .F,
                   evaluationWindow := 4, holdCode := 3, identityWait := 0, upgradeOnRelease := true, powerGood := 20,
                   linkTimeout := 4, toggleOff := 10, recoveryLimit := 3, faultRetries := 2 }

/-- The blocks that every reset sets: the ports, with the pins as they are, the budget arbiter (R140), the notice unit
(R175). -/
def BlocksReset (s t : State) : Prop :=
  (∀ p, (t.port p).isReset ∧ (t.port p).pins = (s.port p).pins ∧ t.grant p = 0 ∧ t.victim p = false)
    ∧ t.budget.total = 8000 ∧ t.budget.pendingTotal = none ∧ t.budget.queue = [] ∧ t.budget.waitLimit = 5
    ∧ (∀ g, t.group g = { pending := 0, epoch := 0 }) ∧ t.notices.mask = 0 ∧ t.notices.alertLow = false

/-- What a pin reset and a Reset Device leave of the Profile Memory (R100). -/
def MemoryKept (s t : State) : Prop :=
  (∀ n, t.entry n = (s.entry n).map fun e => { e with users := 0 })
    ∧ t.memory.recency = s.memory.recency ∧ t.memory.orderCount = 0 ∧ t.memory.threshold = 3

/-- Nothing but one port unit differs. -/
def OnlyPort (p : PortId) (s t : State) : Prop :=
  (∀ q, q ≠ p → t.port q = s.port q) ∧ t.budget = s.budget ∧ t.memory = s.memory ∧ t.notices = s.notices
    ∧ t.host = s.host ∧ t.freeCount = s.freeCount ∧ t.pending = s.pending

end Sys2Proof.Machine
end

