-- ==== Sys2Proof/Certificates/Slice0/Obligations.lean ====
section
/-! DEFINITION. The statements for the provers, one for each entry of OBLIGATIONS.json. Each docstring names the rules or
the sections it rests on. The premise `s.host.inReset = false` says that RST# is high: while it is low the part takes no
frame and no event (R186, log 7). -/

open Sys2Proof Sys2Proof.Machine

/-- A step carries out the command at the front of the queue; with none waiting the clock runs (model choice, log 2)
(spec/10 section 10.4, spec/00 section 0.9). -/
def Obligations.StepTakesTheFrontCommand : Prop :=
  ∀ (s : State) (c : Instr) (rest : List Instr),
    (s.pending = c :: rest → step s = exec c { s with pending := rest }) ∧
    (s.pending = [] → s.dueEvents = [c] → step s = exec c s) ∧
    (s.pending = [] → s.dueEvents = [] → step s = .next s.tick) ∧
    (s.pending = [] → 2 ≤ s.dueEvents.length → ∃ e, e ∈ s.dueEvents ∧ step s = exec e s.spendChoice)

/-- Every command of the table answers a next state and leaves the waiting commands alone (spec/10 section 10.4, spec/00
section 0.9). -/
def Obligations.EveryCommandCompletes : Prop :=
  ∀ (s : State) (c : Instr),
    ∃ t, exec c s = .next t ∧ t.pending = s.pending

/-- POWER_ON_RESET sets every block to its reset values with an empty memory; PIN_RESET_RELEASE samples ADDR (spec/02
section 2.11, spec/04 section 4.8, spec/06 section 6.5, spec/09 section 9.1, spec/10 section 10.1). -/
def Obligations.PowerOnResetAndRstRelease : Prop :=
  ∀ (s : State) (addr : Bool),
    (∃ t, exec (.powerOnReset addr) s = .next t ∧ BlocksReset s t ∧ (∀ n, t.entry n = none) ∧ t.memory.recency = []
        ∧ t.memory.orderCount = 0 ∧ t.memory.threshold = 3 ∧ t.host.response = none ∧ t.host.frame = none
        ∧ t.host.bus = .notAddressed ∧ t.host.address = (if addr then 0x5D#7 else 0x5C#7) ∧ t.pending = s.pending) ∧
    (∃ t, exec (.pinResetRelease addr) s = .next t ∧ t.host.inReset = false
        ∧ t.host.address = (if addr then 0x5D#7 else 0x5C#7) ∧ t.ports = s.ports ∧ t.budget = s.budget
        ∧ t.memory = s.memory
        ∧ t.notices = s.notices ∧ t.host.response = s.host.response ∧ t.host.frame = s.host.frame ∧ t.pending = s.pending)

/-- PIN_RESET and RESET_DEVICE reset every block and keep the Profile Memory entries with users 0 (spec/02 section 2.11,
spec/04 section 4.8, spec/06 section 6.5, spec/09 section 9.1, spec/10 section 10.6). -/
def Obligations.PinResetAndResetDevice : Prop :=
  ∀ (s : State) (tag : Byte),
    (∃ t, exec .pinReset s = .next t ∧ BlocksReset s t ∧ MemoryKept s t ∧ t.host.response = none ∧ t.host.frame = none
        ∧ t.host.bus = .notAddressed ∧ (∀ acks, t.sent acks = none) ∧ t.host.inReset = true ∧ t.pending = s.pending) ∧
    (s.host.inReset = false →
      ∃ t, exec (.resetDevice tag) s = .next t ∧ BlocksReset s t ∧ MemoryKept s t ∧ Replied t .ok tag 0x06 []
        ∧ t.host.address = s.host.address ∧ t.host.inReset = false ∧ t.pending = s.pending)

/-- The state after reset holds the reset values of every block and satisfies every law (spec/02 section 2.11, spec/04
section 4.8, spec/06 section 6.5, spec/07 section 7.8, spec/08 section 8.1, spec/09 section 9.1, spec/10 section 10.4).
-/
def Obligations.ResetStateValuesAndLaws : Prop :=
  BlocksReset State.reset State.reset ∧ (∀ n, State.reset.entry n = none) ∧ State.reset.memory.recency = []
    ∧ State.reset.memory.orderCount = 0 ∧ State.reset.memory.threshold = 3 ∧ State.reset.host.response = none
    ∧ State.reset.host.frame = none ∧ State.reset.pending = [] ∧ LinesLaw State.reset ∧ ProbeLaw State.reset
    ∧ NoticeLaw State.reset ∧ MemoryLaw State.reset ∧ SessionLaw State.reset ∧ QueueLaw State.reset
    ∧ GrantLaw State.reset ∧ ServiceLaw State.reset ∧ CoverLaw State.reset ∧ NeedLaw State.reset ∧ ExactLaw State.reset
    ∧ UsersLaw State.reset ∧ PolicyLaw State.reset

/-- GET_INFO answers OK with the fixed facts of the part and the bus address in use, changing nothing (R197). -/
def Obligations.GetInfoReturnsTheFixedFacts : Prop :=
  ∀ (s : State) (tag : Byte),
    s.host.inReset = false →
    ∃ t, exec (.getInfo tag) s = .next t ∧ SameBlocks s t ∧
      Replied t .ok tag 0x01 [0x08, 0x40, 0x44, 0x01, 8, 48, 8, 32, 40, s.host.address.setWidth 8]

/-- GET_DEVICE_STATUS answers OK with 31 bytes that report the budget, the queue and the memory counts (spec/10 section
10.6, spec/10 section 10.8, spec/06 section 6.5). -/
def Obligations.GetDeviceStatusReportsTheArbiter : Prop :=
  ∀ (s : State) (tag : Byte),
    s.host.inReset = false →
    ∃ t, exec (.getDeviceStatus tag) s = .next t ∧ SameBlocks s t ∧ Replied t .ok tag 0x02 s.deviceStatus
      ∧ s.deviceStatus.length = 31
      ∧ halfOf (s.deviceStatus.getD 0 0) (s.deviceStatus.getD 1 0) = BitVec.ofNat 16 s.budget.total
      ∧ halfOf (s.deviceStatus.getD 2 0) (s.deviceStatus.getD 3 0) = BitVec.ofNat 16 (s.budget.pendingTotal.getD 0)
      ∧ halfOf (s.deviceStatus.getD 4 0) (s.deviceStatus.getD 5 0) = BitVec.ofNat 16 s.sumGrants
      ∧ halfOf (s.deviceStatus.getD 6 0) (s.deviceStatus.getD 7 0) = BitVec.ofNat 16 (s.budget.total - s.sumGrants)
      ∧ (∀ p : PortId, (s.deviceStatus.getD 8 0).getLsbD p.val = s.victim p
          ∧ (s.deviceStatus.getD 9 0).getLsbD p.val = (s.port p).policy.enabled)
      ∧ s.deviceStatus.getD 10 0 = BitVec.ofNat 8 s.budget.queue.length
      ∧ (∀ e, s.budget.queue.head? = some e →
          s.deviceStatus.getD 11 0 = BitVec.ofNat 8 (16 * e.port.val + e.sig.rank)
            ∧ s.deviceStatus.getD 12 0 = BitVec.ofNat 8 ((e.left + 19) / 20))
      ∧ (∀ i : Fin 8,
          s.deviceStatus.getD (11 + 2 * i.val) 0 =
              (match s.budget.queue[i.val]? with
               | none => 0
               | some e => BitVec.ofNat 8 (16 * e.port.val + e.sig.rank))
            ∧ s.deviceStatus.getD (12 + 2 * i.val) 0 =
              (match s.budget.queue[i.val]? with
               | none => 0
               | some e => BitVec.ofNat 8 ((e.left + 19) / 20)))
      ∧ s.deviceStatus.getD 27 0 = BitVec.ofNat 8 s.budget.waitLimit
      ∧ s.deviceStatus.getD 28 0 = BitVec.ofNat 8 (allSlots.filter fun n => (s.entry n).isSome).length
      ∧ halfOf (s.deviceStatus.getD 29 0) (s.deviceStatus.getD 30 0) = s.memory.orderCount

/-- SET_GLOBALS writes the settle threshold and the wait limit, or refuses both with BAD_PARAM (spec/08 section 8.5,
spec/10 section 10.8). -/
def Obligations.SetGlobalsWritesBothSettings : Prop :=
  ∀ (s : State) (tag a b : Byte),
    s.host.inReset = false →
    ((2 ≤ a.toNat ∧ a.toNat ≤ 7 ∧ 1 ≤ b.toNat ∧ b.toNat ≤ 15) →
      ∃ t, exec (.setGlobals tag a b) s = .next t ∧ t.memory.threshold = a.toNat ∧ t.budget.waitLimit = b.toNat
        ∧ Replied t .ok tag 0x04
            [a, b, BitVec.ofNat 8 (allSlots.filter fun n =>
              (s.entry n).any fun e => e.state s.memory.threshold != e.state a.toNat).length]
        ∧ t.ports = s.ports ∧ t.notices = s.notices ∧ t.memory.slots = s.memory.slots
        ∧ t.memory.recency = s.memory.recency
        ∧ t.memory.orderCount = s.memory.orderCount ∧ t.budget.queue = s.budget.queue ∧ t.budget.grants = s.budget.grants
        ∧ t.budget.total = s.budget.total ∧ t.budget.pendingTotal = s.budget.pendingTotal
        ∧ t.budget.victims = s.budget.victims ∧ t.pending = s.pending) ∧
    (¬(2 ≤ a.toNat ∧ a.toNat ≤ 7 ∧ 1 ≤ b.toNat ∧ b.toNat ≤ 15) →
      ∃ t, exec (.setGlobals tag a b) s = .next t ∧ SameBlocks s t ∧ Replied t .badParam tag 0x04 [])

/-- GET_GLOBALS answers OK with the settle threshold and the wait limit as they stand, changing nothing (R173). -/
def Obligations.GetGlobalsReturnsBothSettings : Prop :=
  ∀ (s : State) (tag tag2 a b : Byte) (addr : Bool),
    (s.host.inReset = false →
      ∃ t, exec (.getGlobals tag) s = .next t ∧ SameBlocks s t ∧
        Replied t .ok tag 0x05 [BitVec.ofNat 8 s.memory.threshold, BitVec.ofNat 8 s.budget.waitLimit]) ∧
    (s.host.inReset = false → (2 ≤ a.toNat ∧ a.toNat ≤ 7 ∧ 1 ≤ b.toNat ∧ b.toNat ≤ 15) →
      ∃ t, exec (.setGlobals tag2 a b) s = .next t ∧ (∃ u, exec (.getGlobals tag) t = .next u
        ∧ Replied u .ok tag 0x05 [a, b])) ∧
    (s.host.inReset = false →
      ∃ t, exec (.resetDevice tag2) s = .next t ∧
        (∃ u, exec (.getGlobals tag) t = .next u ∧ Replied u .ok tag 0x05 [3, 5])) ∧
    (∃ t, exec .pinReset s = .next t ∧ (∃ v, exec (.pinResetRelease addr) t = .next v ∧
      (∃ u, exec (.getGlobals tag) v = .next u ∧ Replied u .ok tag 0x05 [3, 5])))

/-- GET_POLICY answers OK with the policy record and the session policy, changing nothing (log 29) (spec/08 section 8.4,
spec/10 section 10.8). -/
def Obligations.GetPolicyReturnsTheRecord : Prop :=
  ∀ (s : State) (tag : Byte) (p : PortId),
    s.host.inReset = false → PolicyLaw s →
    ∃ t, exec (.getPolicy tag (BitVec.ofNat 8 p.val)) s = .next t ∧ SameBlocks s t
      ∧ Replied t .ok tag 0x11 (s.policyData p) ∧ (s.policyData p).length = 29
      ∧ (s.policyData p).take 6 =
          [BitVec.ofNat 8 p.val, yesNo (s.port p).policy.enabled, yesNo (s.port p).policy.fixedDevice,
            yesNo (s.port p).policy.upgradeOnRelease, BitVec.ofNat 8 (s.port p).policy.priority,
            BitVec.ofNat 8 (s.port p).policy.trialList.length]
      ∧ ((s.policyData p).drop 6).take 5 =
          (s.port p).policy.trialList.map (fun g => BitVec.ofNat 8 g.rank)
            ++ List.replicate (5 - (s.port p).policy.trialList.length) 0
      ∧ ((s.policyData p).drop 11).take 9 =
          [BitVec.ofNat 8 (s.port p).policy.maxSig.rank, BitVec.ofNat 8 (s.port p).policy.evaluationWindow,
            BitVec.ofNat 8 (s.port p).policy.holdCode, BitVec.ofNat 8 (s.port p).policy.identityWait,
            BitVec.ofNat 8 (s.port p).policy.powerGood, BitVec.ofNat 8 (s.port p).policy.linkTimeout,
            BitVec.ofNat 8 (s.port p).policy.toggleOff, BitVec.ofNat 8 (s.port p).policy.recoveryLimit,
            BitVec.ofNat 8 (s.port p).policy.faultRetries]
      ∧ ((s.port p).session = none → (s.policyData p).drop 20 = List.replicate 9 0)
      ∧ (∀ x, (s.port p).session = some x →
          (s.policyData p).getD 20 0 = 1 ∧ (s.policyData p).getD 21 0 = BitVec.ofNat 8 x.policy.trialList.length
            ∧ (∀ i : Fin 5, (s.policyData p).getD (22 + i.val) 0 =
                (match x.policy.trialList[i.val]? with
                 | none => 0
                 | some g => BitVec.ofNat 8 g.rank))
            ∧ (s.policyData p).getD 27 0 = BitVec.ofNat 8 x.policy.maxSig.rank
            ∧ (s.policyData p).getD 28 0 = BitVec.ofNat 8 x.policy.identityWait)

/-- SET_POLICY replaces the whole record when every check passes and otherwise changes nothing (spec/08 section 8.2,
spec/10 section 10.8). -/
def Obligations.SetPolicyReplacesTheRecord : Prop :=
  ∀ (s : State) (tag : Byte) (p : PortId) (r : PolicyBytes),
    s.host.inReset = false →
    (recordPasses r → r.fixedDevice = yesNo (s.port p).policy.fixedDevice ∨ (s.port p).state = .disabled →
      ∃ t, exec (.setPolicy tag (BitVec.ofNat 8 p.val) r) s = .next t
        ∧ (t.port p).policy.isSent r ∧ (t.port p).policy.enabled = (s.port p).policy.enabled ∧ (t.port p).policy.inRange
        ∧ t.port p = { s.port p with policy := (t.port p).policy }
        ∧ (∀ q, q ≠ p → t.port q = s.port q) ∧ t.budget = s.budget ∧ t.memory = s.memory ∧ t.notices = s.notices
        ∧ t.pending = s.pending ∧ Replied t .ok tag 0x10 (t.policyData p)) ∧
    (recordPasses r → r.fixedDevice ≠ yesNo (s.port p).policy.fixedDevice → (s.port p).state ≠ .disabled →
      ∃ t, exec (.setPolicy tag (BitVec.ofNat 8 p.val) r) s = .next t ∧ SameBlocks s t
        ∧ Replied t .wrongState tag 0x10 []) ∧
    (¬ recordPasses r →
      ∃ t, exec (.setPolicy tag (BitVec.ofNat 8 p.val) r) s = .next t ∧ SameBlocks s t ∧ Replied t .badParam tag 0x10 [])

/-- GET_PORT answers OK with 17 bytes, or 40 with a session, that report the port unit, changing nothing (values R202
leaves open are 0: log 29) (spec/02 section 2.10, spec/10 section 10.8, spec/07 section 7.8). -/
def Obligations.GetPortReportsThePort : Prop :=
  ∀ (s : State) (tag : Byte) (p : PortId),
    s.host.inReset = false →
    ∃ t, exec (.getPort tag (BitVec.ofNat 8 p.val)) s = .next t ∧ SameBlocks s t ∧ Replied t .ok tag 0x14 (s.portData p)
      ∧ (s.portData p).length = (if (s.port p).session.isSome then 40 else 17)
      ∧ (s.portData p).take 9 =
          [BitVec.ofNat 8 p.val, BitVec.ofNat 8 ((s.port p).state.code + 16 * quarantineCode (s.port p).quarantine),
            (s.port p).flagByte, BitVec.ofNat 8 (s.grant p / 256), BitVec.ofNat 8 (s.grant p),
            sigCode (s.port p).presented, sigCode ((s.port p).rePresent.map (·.target)), (s.port p).detector.code,
            BitVec.ofNat 8 (16 * (s.port p).tripCount + (s.port p).recoveryCount)]
      ∧ halfOf ((s.portData p).getD 9 0) ((s.portData p).getD 10 0) = (s.port p).counter
      ∧ halfOf ((s.portData p).getD 11 0) ((s.portData p).getD 12 0) = BitVec.ofNat 16 (s.port p).latest
      ∧ halfOf ((s.portData p).getD 13 0) ((s.portData p).getD 14 0) = BitVec.ofNat 16 (s.grant p + s.grant p / 4)
      ∧ ((s.portData p).drop 15).take 2 = (s.port p).timerBytes
      ∧ (s.port p).flagByte.getLsbD 0 = (s.port p).fixed ∧ (s.port p).flagByte.getLsbD 1 = (s.port p).pins.att
      ∧ (s.port p).flagByte.getLsbD 2 = (s.port p).pins.hen ∧ (s.port p).flagByte.getLsbD 3 = (s.port p).pins.lok
      ∧ (s.port p).flagByte.getLsbD 4 = (s.port p).overcurrent
      ∧ (s.port p).flagByte.getLsbD 5 = (s.port p).rePresent.isSome
      ∧ (s.port p).flagByte.getLsbD 7 = (s.port p).session.isSome
      ∧ (s.port p).flagByte.getLsbD 6 = (s.port p).rePresent.any (·.hubRetarget)
      ∧ (∀ x, (s.port p).session = some x →
          (s.portData p).getD 17 0 = phaseCode (if x.held.isSome then x.held else x.phase)
            ∧ ((s.portData p).getD 18 0).getLsbD 0 = x.held.isSome ∧ ((s.portData p).getD 18 0).getLsbD 1 = x.shed
            ∧ ((s.portData p).getD 18 0).getLsbD 2 = x.trialsBegun
            ∧ ((s.portData p).getD 18 0).getLsbD 3 = decide (x.mode = .data)
            ∧ ((s.portData p).getD 18 0).getLsbD 4 = x.probeSeen
            ∧ ((s.portData p).getD 18 0).getLsbD 5 = x.identity.isSome
            ∧ ((s.portData p).getD 18 0).getLsbD 6 = x.boundSlot.isSome
            ∧ ((s.portData p).getD 18 0).getLsbD 7 = x.resumptionWindow
            ∧ (s.portData p).getD 19 0 = sigCode x.target ∧ (s.portData p).getD 20 0 = planCode x.resumePlan
            ∧ (x.identity = none → ((s.portData p).drop 21).take 6 = [0, 0, 0, 0, 0, 0])
            ∧ (∀ i, x.identity = some i → ((s.portData p).drop 21).take 6 =
                [hiByte i.vendor, loByte i.vendor, hiByte i.product, loByte i.product, hiByte i.release, loByte i.release])
            ∧ (s.portData p).getD 27 0 = slotCode x.boundSlot
            ∧ (∀ i : Fin 5, (s.portData p).getD (28 + i.val) 0 =
                (match x.verdicts[i.val]? with
                 | none => 0
                 | some w => BitVec.ofNat 8 (16 * w.sig.rank + 4 * w.verdict.code + (if w.folded then 1 else 0))))
            ∧ ((s.portData p).drop 33).take 3 =
                [BitVec.ofNat 8 (x.sum / 65536), BitVec.ofNat 8 (x.sum / 256), BitVec.ofNat 8 x.sum]
            ∧ ((s.portData p).drop 36).take 2 = [BitVec.ofNat 8 (x.count / 256), BitVec.ofNat 8 x.count]
            ∧ ((s.portData p).drop 38).take 2 =
                (match x.lastMean with
                 | none => [0xFF, 0xFF]
                 | some mean => [BitVec.ofNat 8 (mean / 256), BitVec.ofNat 8 mean]))
      ∧ ((s.port p).timers.link = none → (s.port p).timers.coolDown = none → (s.port p).timers.toggleOff = none →
          (s.portData p).getD 15 0 = 0 ∧ (s.portData p).getD 16 0 = 0)
      ∧ (∀ n, (s.port p).timers.link = some n → (s.port p).timers.coolDown = none → (s.port p).timers.toggleOff = none →
          (s.portData p).getD 15 0 = 1 ∧ (s.portData p).getD 16 0 = BitVec.ofNat 8 ((n + 19) / 20))
      ∧ (∀ n, (s.port p).timers.coolDown = some n → (s.port p).timers.link = none → (s.port p).timers.toggleOff = none →
          (s.portData p).getD 15 0 = 2 ∧ (s.portData p).getD 16 0 = BitVec.ofNat 8 ((n + 19) / 20))
      ∧ (∀ n, (s.port p).timers.toggleOff = some n → (s.port p).timers.link = none → (s.port p).timers.coolDown = none →
          (s.portData p).getD 15 0 = 3 ∧ (s.portData p).getD 16 0 = BitVec.ofNat 8 ((n + 19) / 20))

/-- READ_NOTICES answers OK with every group's set and epoch, the mask and ALERT#, changing nothing (R181). -/
def Obligations.ReadNoticesReportsEveryGroup : Prop :=
  ∀ (s : State) (tag : Byte),
    s.host.inReset = false →
    ∃ t, exec (.readNotices tag) s = .next t ∧ SameBlocks s t ∧ Replied t .ok tag 0x30 s.noticeData
      ∧ s.noticeData.length = 30
      ∧ (∀ g : GroupId, halfOf (s.noticeData.getD (3 * g.val) 0) (s.noticeData.getD (3 * g.val + 1) 0) = (s.group g).pending
          ∧ s.noticeData.getD (3 * g.val + 2) 0 = (s.group g).epoch)
      ∧ halfOf (s.noticeData.getD 27 0) (s.noticeData.getD 28 0) = s.notices.mask
      ∧ s.noticeData.getD 29 0 = (if s.notices.alertLow then 1 else 0)

/-- ACK_NOTICES clears the named kinds when the epoch matches and otherwise answers STALE and changes nothing (R182). -/
def Obligations.AckNoticesClearsByEpoch : Prop :=
  ∀ (s : State) (tag b : Byte) (g : GroupId) (kinds : Half) (epoch : Byte),
    s.host.inReset = false →
    (8 < b.toNat → ∃ t, exec (.ackNotices tag b kinds epoch) s = .next t ∧ SameBlocks s t
      ∧ Replied t .badParam tag 0x31 []) ∧
    (kinds &&& ~~~groupKinds g ≠ 0 →
      ∃ t, exec (.ackNotices tag (BitVec.ofNat 8 g.val) kinds epoch) s = .next t ∧ SameBlocks s t
        ∧ Replied t .badParam tag 0x31 []) ∧
    (kinds &&& ~~~groupKinds g = 0 → epoch = (s.group g).epoch →
      ∃ t, exec (.ackNotices tag (BitVec.ofNat 8 g.val) kinds epoch) s = .next t
        ∧ t.group g = { pending := (s.group g).pending &&& ~~~kinds, epoch := (s.group g).epoch }
        ∧ (∀ h, h ≠ g → t.group h = s.group h) ∧ t.notices.mask = s.notices.mask
        ∧ (t.notices.alertLow = true ↔ ∃ h : GroupId, (t.group h).pending &&& ~~~s.notices.mask ≠ 0)
        ∧ t.ports = s.ports ∧ t.budget = s.budget ∧ t.memory = s.memory ∧ t.pending = s.pending
        ∧ Replied t .ok tag 0x31
            [BitVec.ofNat 8 g.val, hiByte (t.group g).pending, loByte (t.group g).pending, (s.group g).epoch,
              hiByte (kinds &&& (s.group g).pending), loByte (kinds &&& (s.group g).pending)]) ∧
    (kinds &&& ~~~groupKinds g = 0 → epoch ≠ (s.group g).epoch →
      ∃ t, exec (.ackNotices tag (BitVec.ofNat 8 g.val) kinds epoch) s = .next t ∧ SameBlocks s t
        ∧ Replied t .stale tag 0x31
            [BitVec.ofNat 8 g.val, hiByte (s.group g).pending, loByte (s.group g).pending, (s.group g).epoch, 0, 0])

/-- SET_NOTICE_MASK replaces the mask and brings ALERT# into line, or refuses an unknown kind (R184). -/
def Obligations.SetNoticeMaskReplacesTheMask : Prop :=
  ∀ (s : State) (tag : Byte) (kinds : Half),
    s.host.inReset = false →
    (kinds &&& ~~~allKinds = 0 →
      ∃ t, exec (.setNoticeMask tag kinds) s = .next t ∧ t.notices.mask = kinds ∧ (∀ g, t.group g = s.group g)
        ∧ (t.notices.alertLow = true ↔ ∃ g : GroupId, (s.group g).pending &&& ~~~kinds ≠ 0)
        ∧ t.ports = s.ports ∧ t.budget = s.budget ∧ t.memory = s.memory ∧ t.pending = s.pending
        ∧ Replied t .ok tag 0x32 [hiByte kinds, loByte kinds, if t.notices.alertLow then 1 else 0]) ∧
    (kinds &&& ~~~allKinds ≠ 0 →
      ∃ t, exec (.setNoticeMask tag kinds) s = .next t ∧ SameBlocks s t ∧ Replied t .badParam tag 0x32 [])

/-- PM_LOOKUP answers OK with the record of the entry that holds the key, else NOT_FOUND, moving nothing (R90). -/
def Obligations.PmLookupReturnsTheEntryOfTheKey : Prop :=
  ∀ (s : State) (tag : Byte) (v d : Half) (n : SlotId),
    s.host.inReset = false → MemoryLaw s →
    (∀ e, s.entry n = some e → e.vendor = v → e.product = d →
      ∃ t, exec (.pmLookup tag v d) s = .next t ∧ SameBlocks s t ∧ Replied t .ok tag 0x20 (s.entryData n)
        ∧ s.entryData n =
            [BitVec.ofNat 8 n.val, (e.state s.memory.threshold).code, hiByte v, loByte v, hiByte d, loByte d,
              hiByte e.release, loByte e.release, sigCode e.pinned, sigCode e.preferred, BitVec.ofNat 8 e.users,
              e.tallies.l.byte, e.tallies.a.byte, e.tallies.b.byte, e.tallies.h.byte, e.tallies.f.byte]) ∧
    ((∀ k, (s.entry k).all fun e => !(e.vendor == v && e.product == d)) →
      ∃ t, exec (.pmLookup tag v d) s = .next t ∧ SameBlocks s t ∧ Replied t .notFound tag 0x20 [])

/-- PM_READ answers OK with the entry in a slot, NOT_FOUND for a VACANT one, BAD_PARAM above 47 (R91). -/
def Obligations.PmReadReturnsTheSlot : Prop :=
  ∀ (s : State) (tag b : Byte) (n : SlotId),
    s.host.inReset = false →
    (47 < b.toNat → ∃ t, exec (.pmRead tag b) s = .next t ∧ SameBlocks s t ∧ Replied t .badParam tag 0x21 []) ∧
    (s.entry n = none →
      ∃ t, exec (.pmRead tag (BitVec.ofNat 8 n.val)) s = .next t ∧ SameBlocks s t ∧ Replied t .notFound tag 0x21 []) ∧
    (∀ e, s.entry n = some e →
      ∃ t, exec (.pmRead tag (BitVec.ofNat 8 n.val)) s = .next t ∧ SameBlocks s t
        ∧ Replied t .ok tag 0x21
            [BitVec.ofNat 8 n.val, (e.state s.memory.threshold).code, hiByte e.vendor, loByte e.vendor, hiByte e.product,
              loByte e.product, hiByte e.release, loByte e.release, sigCode e.pinned, sigCode e.preferred,
              BitVec.ofNat 8 e.users, e.tallies.l.byte, e.tallies.a.byte, e.tallies.b.byte, e.tallies.h.byte,
              e.tallies.f.byte])

/-- PM_ORDER answers OK with the order count, the list length and the 24 slots of a page, changing nothing (R98). -/
def Obligations.PmOrderReturnsAPage : Prop :=
  ∀ (s : State) (tag g : Byte),
    s.host.inReset = false →
    (g.toNat ≤ 1 →
      ∃ t, exec (.pmOrder tag g) s = .next t ∧ SameBlocks s t
        ∧ Replied t .ok tag 0x27
            ([hiByte s.memory.orderCount, loByte s.memory.orderCount, BitVec.ofNat 8 s.memory.recency.length, g]
              ++ ((s.memory.recency.drop (24 * g.toNat)).take 24).map fun n => BitVec.ofNat 8 n.val)) ∧
    (1 < g.toNat → ∃ t, exec (.pmOrder tag g) s = .next t ∧ SameBlocks s t ∧ Replied t .badParam tag 0x27 [])

/-- PM_WRITE replaces the entry of its key in place, inserts at the tail, evicts, or refuses, by the first row that fits
(spec/04 section 4.7, spec/04 section 4.5). -/
def Obligations.PmWriteReplacesOrInserts : Prop :=
  ∀ (s : State) (tag : Byte) (b : ImportBytes) (k : SlotId),
    s.host.inReset = false → MemoryLaw s →
    (importEntry b = none ∨ targetOf b.target = none →
      ∃ t, exec (.pmWrite tag b) s = .next t ∧ SameBlocks s t ∧ Replied t .badParam tag 0x22 []) ∧
    (∀ new, importEntry b = some new → ∀ target, targetOf b.target = some target →
      (∀ old, s.entry k = some old → old.vendor = b.vendor → old.product = b.product →
        ((∃ n, target = some n ∧ n ≠ k) →
          ∃ t, exec (.pmWrite tag b) s = .next t ∧ SameBlocks s t ∧ Replied t .duplicate tag 0x22 []) ∧
        (target = none ∨ target = some k → 0 < old.users →
          ∃ t, exec (.pmWrite tag b) s = .next t ∧ SameBlocks s t ∧ Replied t .inUse tag 0x22 []) ∧
        (target = none ∨ target = some k → old.users = 0 →
          ∃ t, exec (.pmWrite tag b) s = .next t
            ∧ t.entry k = some { old with release := b.release, pinned := new.pinned, tallies := importTallies b }
            ∧ (∀ n, n ≠ k → t.entry n = s.entry n) ∧ t.memory.recency = s.memory.recency
            ∧ t.memory.orderCount = s.memory.orderCount ∧ t.ports = s.ports ∧ t.budget = s.budget ∧ t.notices = s.notices
            ∧ Replied t .ok tag 0x22 (t.entryData k))) ∧
      ((∀ n, (s.entry n).all fun e => !(e.vendor == b.vendor && e.product == b.product)) →
        (target = some k → ∀ old, s.entry k = some old → 0 < old.users →
          ∃ t, exec (.pmWrite tag b) s = .next t ∧ SameBlocks s t ∧ Replied t .inUse tag 0x22 []) ∧
        ((target = some k ∧ ((s.entry k).all fun e => e.users == 0) = true)
            ∨ (target = none ∧ s.entry k = none ∧ ∀ n, n < k → (s.entry n).isSome = true) →
          ∃ t, exec (.pmWrite tag b) s = .next t
            ∧ t.entry k = some { vendor := b.vendor, product := b.product, release := b.release, pinned := new.pinned,
                                 tallies := importTallies b, users := 0 }
            ∧ (∀ n, n ≠ k → t.entry n = s.entry n)
            ∧ t.memory.recency = (s.memory.recency.filter fun n => n ≠ k) ++ [k]
            ∧ t.memory.orderCount = s.memory.orderCount + 1 ∧ t.ports = s.ports ∧ t.budget = s.budget
            ∧ t.notices = s.notices ∧ Replied t .ok tag 0x22 (t.entryData k)) ∧
        (target = none → (∀ n, (s.entry n).isSome = true) →
          ((∀ n, ((s.entry n).any fun e => e.pinned.isNone && e.users == 0) = false) →
            ∃ t, exec (.pmWrite tag b) s = .next t ∧ t.memory = s.memory ∧ t.ports = s.ports ∧ t.budget = s.budget
              ∧ RaisedIn s t 8 .pmFull ∧ (∀ g, g ≠ 8 → t.group g = s.group g) ∧ Replied t .full tag 0x22 []) ∧
          ((s.memory.recency.reverse.find? fun n => (s.entry n).any fun e => e.pinned.isNone && e.users == 0) = some k →
            ∃ t, exec (.pmWrite tag b) s = .next t
              ∧ t.entry k = some { vendor := b.vendor, product := b.product, release := b.release, pinned := new.pinned,
                                   tallies := importTallies b, users := 0 }
              ∧ (∀ n, n ≠ k → t.entry n = s.entry n)
              ∧ t.memory.recency = (s.memory.recency.filter fun n => n ≠ k) ++ [k]
              ∧ t.memory.orderCount = s.memory.orderCount + 1 ∧ t.ports = s.ports ∧ t.budget = s.budget
              ∧ RaisedIn s t 8 .pmEvict ∧ (∀ g, g ≠ 8 → t.group g = s.group g)
              ∧ Replied t .ok tag 0x22 (t.entryData k)))))

/-- PM_RETIRE vacates the entry of a key that has no users and no pin, or refuses by the first row that fits (spec/04
section 4.7). -/
def Obligations.PmRetireVacatesASpareEntry : Prop :=
  ∀ (s : State) (tag : Byte) (v d : Half) (k : SlotId),
    s.host.inReset = false → MemoryLaw s →
    ((∀ n, (s.entry n).all fun e => !(e.vendor == v && e.product == d)) →
      ∃ t, exec (.pmRetire tag v d) s = .next t ∧ SameBlocks s t ∧ Replied t .notFound tag 0x23 []) ∧
    (∀ e, s.entry k = some e → e.vendor = v → e.product = d →
      (0 < e.users → ∃ t, exec (.pmRetire tag v d) s = .next t ∧ SameBlocks s t ∧ Replied t .inUse tag 0x23 []) ∧
      (e.users = 0 → e.pinned.isSome = true →
        ∃ t, exec (.pmRetire tag v d) s = .next t ∧ SameBlocks s t ∧ Replied t .wrongState tag 0x23 []) ∧
      (e.users = 0 → e.pinned = none →
        ∃ t, exec (.pmRetire tag v d) s = .next t ∧ t.entry k = none ∧ (∀ n, n ≠ k → t.entry n = s.entry n)
          ∧ t.memory.recency = (s.memory.recency.filter fun n => n ≠ k)
          ∧ t.memory.orderCount = s.memory.orderCount + 1 ∧ t.ports = s.ports ∧ t.budget = s.budget
          ∧ t.notices = s.notices
          ∧ t.pending = s.pending ∧ Replied t .ok tag 0x23 [BitVec.ofNat 8 k.val]))

/-- PM_PIN and PM_UNPIN set or clear the pin of the entry of a key, move it to the front and tell the ports bound to it
(spec/04 section 4.7, spec/04 section 4.6, spec/05 section 5.7, spec/05 section 5.8, spec/03 section 3.7). -/
def Obligations.PmPinAndUnpinSetThePin : Prop :=
  ∀ (s : State) (tag b : Byte) (v d : Half) (g : Sig) (k : SlotId),
    s.host.inReset = false → MemoryLaw s →
    (sigOf b = none → ∃ t, exec (.pmPin tag v d b) s = .next t ∧ SameBlocks s t ∧ Replied t .badParam tag 0x24 []) ∧
    ((∀ n, (s.entry n).all fun e => !(e.vendor == v && e.product == d)) →
      (∃ t, exec (.pmPin tag v d (BitVec.ofNat 8 g.rank)) s = .next t ∧ SameBlocks s t
        ∧ Replied t .notFound tag 0x24 []) ∧
      (∃ t, exec (.pmUnpin tag v d) s = .next t ∧ SameBlocks s t ∧ Replied t .notFound tag 0x25 [])) ∧
    (∀ e, s.entry k = some e → e.vendor = v → e.product = d →
      (∃ t, exec (.pmPin tag v d (BitVec.ofNat 8 g.rank)) s = .next t ∧ t.entry k = some { e with pinned := some g }
        ∧ (∀ n, n ≠ k → t.entry n = s.entry n)
        ∧ t.memory.recency = k :: (s.memory.recency.filter fun n => n ≠ k)
        ∧ t.memory.orderCount = (if t.memory.recency = s.memory.recency then s.memory.orderCount else s.memory.orderCount + 1)
        ∧ Replied t .ok tag 0x24 (t.entryData k) ∧ t.pending = s.pending
        ∧ (e.users = 0 ∨ e.pinned = some g → t.ports = s.ports ∧ t.budget = s.budget ∧ t.notices = s.notices)) ∧
      (∃ t, exec (.pmUnpin tag v d) s = .next t ∧ t.entry k = some { e with pinned := none }
        ∧ (∀ n, n ≠ k → t.entry n = s.entry n)
        ∧ t.memory.recency = k :: (s.memory.recency.filter fun n => n ≠ k)
        ∧ t.memory.orderCount = (if t.memory.recency = s.memory.recency then s.memory.orderCount else s.memory.orderCount + 1)
        ∧ Replied t .ok tag 0x25 (t.entryData k) ∧ t.pending = s.pending
        ∧ (e.users = 0 ∨ e.pinned = none → t.ports = s.ports ∧ t.budget = s.budget ∧ t.notices = s.notices))) ∧
    (ExactLaw s → ∀ e, s.entry k = some e → e.vendor = v → e.product = d → 0 < e.users → e.pinned ≠ some g →
      ∃ t, exec (.pmPin tag v d (BitVec.ofNat 8 g.rank)) s = .next t
        ∧ (∀ q, ((s.port q).session.any fun x => x.boundSlot == some k) = false → t.port q = s.port q
        ∧ t.grant q = s.grant q)
        ∧ (∀ q, ∀ x, (s.port q).session = some x → x.boundSlot = some k →
            ((s.port q).marksDue x → t.port q = { s.port q with session := some { x with recomputeDue := true } }) ∧
            (¬ (s.port q).marksDue x → ¬((s.port q).state = .occupied ∧ x.phase = some .steady ∧ x.shed = false) →
              t.port q = s.port q) ∧
            ((s.port q).state = .occupied → x.phase = some .steady → x.shed = false → (s.port q).presented = x.presented →
              ((¬(((s.port q).pins.hen = false ∨ g = .P ∨ g = .A) ∧ g.rank ≤ x.policy.maxSig.rank
                    ∧ verdictIn x.verdicts g ≠ some .rejected) ∨ x.presented = some g) →
                t.port q = { s.port q with session := some { x with
                  mode := (s.port q).modeNow, remaining := [], recomputeDue := false } }) ∧
              (((s.port q).pins.hen = false ∨ g = .P ∨ g = .A) → g.rank ≤ x.policy.maxSig.rank →
                verdictIn x.verdicts g ≠ some .rejected → x.presented ≠ some g →
                ((t.port q).session.any fun y => y.steps == [⟨g, .present⟩] && y.current.isSome
                  && (y.phase == some .representing || y.phase == some .waitingBudget)) = true)))) ∧
    (ExactLaw s → ∀ e, s.entry k = some e → e.vendor = v → e.product = d → 0 < e.users → e.pinned ≠ none →
      ∃ t, exec (.pmUnpin tag v d) s = .next t
        ∧ (∀ q, ((s.port q).session.any fun x => x.boundSlot == some k) = false → t.port q = s.port q
        ∧ t.grant q = s.grant q)
        ∧ (∀ q, ∀ x, (s.port q).session = some x → x.boundSlot = some k →
            ((s.port q).marksDue x → t.port q = { s.port q with session := some { x with recomputeDue := true } }) ∧
            (¬ (s.port q).marksDue x → ¬((s.port q).state = .occupied ∧ x.phase = some .steady ∧ x.shed = false) →
              t.port q = s.port q) ∧
            ((s.port q).state = .occupied → x.phase = some .steady → x.shed = false → (s.port q).presented = x.presented →
              ((t.port q).session.any fun y => y.reAimed t (s.port q) (s.grant q)) = true ∧
              (t.aims x (s.port q) (t.computedSteps false (s.port q).modeNow x) = false →
                t.port q = { s.port q with session := some { x with
                  mode := (s.port q).modeNow, remaining := [], recomputeDue := false } } ∧ t.grant q = s.grant q))))

/-- PM_CLEAR vacates every entry without users, pinned ones only under option 1, and keeps the others in order (spec/04
section 4.7). -/
def Obligations.PmClearVacatesSpareEntries : Prop :=
  ∀ (s : State) (tag b : Byte) (pinsToo : Bool),
    s.host.inReset = false →
    (1 < b.toNat → ∃ t, exec (.pmClear tag b) s = .next t ∧ SameBlocks s t ∧ Replied t .badParam tag 0x26 []) ∧
    (∃ t, exec (.pmClear tag (yesNo pinsToo)) s = .next t
      ∧ (∀ n, t.entry n = (s.entry n).filter fun e => 0 < e.users || (e.pinned.isSome && !pinsToo))
      ∧ t.memory.recency =
          (s.memory.recency.filter fun n => (s.entry n).isNone || (t.entry n).isSome)
      ∧ t.memory.orderCount =
          (if ∀ n, t.entry n = s.entry n then s.memory.orderCount else s.memory.orderCount + 1)
      ∧ t.ports = s.ports ∧ t.budget = s.budget ∧ t.notices = s.notices ∧ t.pending = s.pending
      ∧ Replied t .ok tag 0x26
          [BitVec.ofNat 8 (allSlots.filter fun n => (s.entry n).isSome && (t.entry n).isNone).length,
            BitVec.ofNat 8 (allSlots.filter fun n => (t.entry n).isSome).length])

/-- The preferred signature and the state of an entry follow from its tallies, its pin and the settle threshold (R74,
R75). -/
def Obligations.PreferredSignatureAndEntryState : Prop :=
  ∀ (s : State) (e : Entry) (g h : Sig) (threshold : Nat) (n : SlotId) (policy : SessionPolicy) (m : Mode),
    (e.preferred = some g ↔
      g ≠ .P ∧ (e.tallies.get g).rej < (e.tallies.get g).acc
        ∧ ∀ h : Sig, h ≠ .P → g.rank < h.rank → (e.tallies.get h).acc ≤ (e.tallies.get h).rej) ∧
    (e.preferred = none ↔ ∀ h : Sig, h ≠ .P → (e.tallies.get h).acc ≤ (e.tallies.get h).rej) ∧
    (({ e with pinned := some h } : Entry).preferred = e.preferred) ∧
    (s.entry n = some e → (s.entryData n).getD 9 0 = sigCode e.preferred) ∧
    (e.pinned = some h → orderedSteps policy m threshold (some e) =
      if (m = .charge ∨ h = .P ∨ h = .A) ∧ h.rank ≤ policy.maxSig.rank then [⟨h, .present⟩] else []) ∧
    (e.pinned.isSome = true → e.state threshold = .pinned) ∧
    (e.pinned = none → (∀ h : Sig, (e.tallies.get h).acc = 0 ∧ (e.tallies.get h).rej = 0) → e.state threshold = .new) ∧
    (e.pinned = none → (∃ h : Sig, (e.tallies.get h).acc ≠ 0 ∨ (e.tallies.get h).rej ≠ 0) → e.preferred = some g →
      e.state threshold =
        if threshold ≤ (e.tallies.get g).acc - (e.tallies.get g).rej then .settled else .tentative) ∧
    (e.pinned = none → (∃ h : Sig, (e.tallies.get h).acc ≠ 0 ∨ (e.tallies.get h).rej ≠ 0) → e.preferred = none →
      e.state threshold = .tentative)

/-- A fold halves both counts of its signature when the named count is 15, adds one, and moves the entry to the front
(spec/04 section 4.3, spec/04 section 4.4). -/
def Obligations.FoldAddsOneVerdict : Prop :=
  ∀ (m : ProfileMemory) (n : SlotId) (g : Sig) (accepted : Bool),
    g ≠ .P → ∀ e, m.entry n = some e →
    (∃ f, (m.fold n g accepted).entry n = some f
      ∧ { f with tallies := e.tallies } = e
      ∧ (∀ h : Sig, h ≠ g → f.tallies.get h = e.tallies.get h)
      ∧ f.tallies.get g =
          (let old := e.tallies.get g
           let c := if accepted then old.acc else old.rej
           let half : Tally := if c = 15 then ⟨old.acc / 2, old.rej / 2⟩ else old
           if accepted then ⟨half.acc + 1, half.rej⟩ else ⟨half.acc, half.rej + 1⟩)
      ∧ (e.tallies.valid = true → f.tallies.valid = true)) ∧
    (∀ k, k ≠ n → (m.fold n g accepted).entry k = m.entry k) ∧
    (m.fold n g accepted).recency = n :: (m.recency.filter fun k => k ≠ n) ∧
    (m.fold n g accepted).orderCount =
      (if (m.fold n g accepted).recency = m.recency then m.orderCount else m.orderCount + 1) ∧
    (m.fold n g accepted).threshold = m.threshold

/-- ENABLE_PORT takes a DISABLED port to POWERING with a 500 mA grant and its kind read from the policy (spec/02 section
2.3, spec/06 section 6.2, spec/08 section 8.1). -/
def Obligations.EnablePortGrantsTheBase : Prop :=
  ∀ (s : State) (tag : Byte) (p : PortId),
    s.host.inReset = false → SessionLaw s → LinesLaw s → (s.port p).state = .disabled → s.budget.pendingTotal = none →
    500 ≤ s.headroom →
    ∃ t, exec (.enablePort tag (BitVec.ofNat 8 p.val)) s = .next t ∧ t.grant p = 500
      ∧ (t.port p).policy = { (s.port p).policy with enabled := true } ∧ (t.port p).fixed = (s.port p).policy.fixedDevice
      ∧ (t.port p).switchOn = true ∧ (t.port p).tripCount ≤ (s.port p).tripCount
      ∧ Replied t .ok tag 0x12 (t.actionData p) ∧ OthersKept p s t
      ∧ (∀ q, q ≠ p → t.port q = s.port q ∧ t.grant q = s.grant q) ∧ t.memory = s.memory
      ∧ ((s.port p).policy.powerGood ≠ 0 → (t.port p).state = .powering ∧ (t.port p).presented = none
          ∧ (t.port p).timers.powerGood = some (s.port p).policy.powerGood ∧ (t.port p).session = none
          ∧ t.notices = s.notices)
      ∧ ((s.port p).policy.powerGood = 0 → ((t.port p).state = .idle ∨ (t.port p).state = .occupied)
          ∧ (t.port p).presented = some .P ∧ (t.port p).timers.powerGood = none)

/-- DISABLE_PORT and RESET_PORT switch the port off, end its session and work, set its grant to 0 or 500 mA; its kind
stays (log 12) (spec/02 section 2.3, spec/06 section 6.2, spec/07 section 7.7, spec/08 section 8.1). -/
def Obligations.DisableAndResetPortEndEverything : Prop :=
  ∀ (s : State) (tag : Byte) (p : PortId),
    s.host.inReset = false → (s.port p).state ≠ .disabled →
    (∃ t, exec (.disablePort tag (BitVec.ofNat 8 p.val)) s = .next t
      ∧ t.port p = { s.port p with
          state := .disabled, switchOn := false, presented := none, rePresent := none, detector := .off, overcurrent := false,
          quarantine := none, session := none, tripCount := 0, recoveryCount := 0,
          policy := { (s.port p).policy with enabled := false }, timers := Timers.stopped }
      ∧ t.grant p = 0 ∧ t.queued p = false ∧ t.victim p = false
      ∧ t.group (portGroup p) = s.group (portGroup p) ∧ Replied t .ok tag 0x13 (t.actionData p) ∧ OthersKept p s t) ∧
    (∃ t, exec (.resetPort tag (BitVec.ofNat 8 p.val)) s = .next t
      ∧ t.port p = { s.port p with
          state := .recovery, switchOn := false, presented := none, rePresent := none, detector := .off, overcurrent := false,
          quarantine := none, session := none, tripCount := 0, recoveryCount := 0,
          timers := { Timers.stopped with toggleOff := some (40 + 4 * (s.port p).policy.toggleOff) } }
      ∧ t.grant p = 500 ∧ t.queued p = false ∧ t.victim p = false
      ∧ t.group (portGroup p) = s.group (portGroup p) ∧ Replied t .ok tag 0x17 (t.actionData p) ∧ OthersKept p s t)

/-- RETRY_TRIALS on a STEADY session computes the sequence afresh and takes its first step; what a computation gives
(spec/03 section 3.7, spec/03 section 3.2). -/
def Obligations.RetryTrialsComputesAgain : Prop :=
  ∀ (s : State) (tag : Byte) (p : PortId) (policy : SessionPolicy) (m : Mode) (threshold : Nat) (e : Entry) (g : Sig)
    (again : Bool) (list : List VerdictEntry) (ordered : List TrialStep),
    (s.host.inReset = false → (s.port p).state = .occupied → s.phase p = some .steady →
    ∀ x, (s.port p).session = some x →
    ∃ t, exec (.retryTrials tag (BitVec.ofNat 8 p.val)) s = .next t ∧ Replied t .ok tag 0x16 (t.actionData p)
      ∧ OthersKept p s t ∧ t.memory = s.memory
      ∧ ((t.port p).session.any fun y =>
          !y.shed && y.trialsBegun && y.mode == (if (s.port p).pins.hen then .data else .charge) && y.number == x.number
            && y.identity == x.identity && y.boundSlot == x.boundSlot && y.verdicts == x.verdicts && !y.recomputeDue
            && y.took (s.port p) (s.grant p) (s.computedSteps true (s.port p).modeNow x)) = true) ∧
    (candidates policy .charge = policy.trialList ∧ candidates policy .data = policy.trialList.filter fun c => c = .A) ∧
    (orderedSteps policy m threshold none = (candidates policy m).map fun c => ⟨c, .evaluate⟩) ∧
    (e.state threshold = .new ∨ (e.state threshold = .tentative ∧ e.preferred = none) →
      orderedSteps policy m threshold (some e) = (candidates policy m).map fun c => ⟨c, .evaluate⟩) ∧
    (e.state threshold = .tentative → e.preferred = some g →
      orderedSteps policy m threshold (some e) =
        ((if g ∈ candidates policy m then [g] else []) ++ (candidates policy m).filter fun c => c ≠ g).map
          fun c => ⟨c, .evaluate⟩) ∧
    (e.state threshold = .settled → e.preferred = some g →
      orderedSteps policy m threshold (some e) =
        ((if g ∈ candidates policy m then [g] else []) ++ (candidates policy m).filter fun c => c.rank < g.rank).map
          fun c => ⟨c, .evaluate⟩) ∧
    ((list.map (·.sig)).Nodup →
      (∀ o, o ∈ underVerdicts again list ordered → (∀ w, w ∈ list → w.sig = o.sig → w.verdict ≠ .rejected)) ∧
      (∀ o, o ∈ underVerdicts again list ordered → ∃ o', o' ∈ ordered ∧ o'.sig = o.sig ∧
        (o.kind = .present ↔ o'.kind = .present ∨ (∃ w, w ∈ list ∧ w.sig = o.sig ∧
          (w.verdict = .accepted ∨ (w.verdict = .inconclusive ∧ again = false))))) ∧
      ((underVerdicts again list ordered).map (·.sig)) <+:
        ((ordered.filter fun o => !(list.any fun w => w.sig == o.sig && w.verdict == .rejected)).map (·.sig)) ∧
      (∀ o, o ∈ (underVerdicts again list ordered).dropLast → o.kind = .evaluate) ∧
      ((underVerdicts again list ordered).length
          < (ordered.filter fun o => !(list.any fun w => w.sig == o.sig && w.verdict == .rejected)).length →
        ((underVerdicts again list ordered).getLast?.any fun o => o.kind == .present) = true))

/-- POST_IDENTITY writes the identity and binds, confirms or rebinds the session of an OCCUPIED or HOLD port, and
answers seven bytes (logs 29 and 30) (spec/05 section 5.2, spec/05 section 5.3, spec/05 section 5.4, spec/05 section
5.5, spec/05 section 5.6, spec/05 section 5.7, spec/04 section 4.5, spec/04 section 4.6). -/
def Obligations.PostIdentityBindsTheSession : Prop :=
  ∀ (s : State) (tag : Byte) (p : PortId) (v d r : Half) (k : SlotId),
    s.host.inReset = false → MemoryLaw s → SessionLaw s → ExactLaw s →
    ((s.port p).state = .occupied ∨ (s.port p).state = .hold) → ∀ x, (s.port p).session = some x →
    ∃ t, exec (.postIdentity tag (BitVec.ofNat 8 p.val) v d r) s = .next t ∧ OthersKept p s t
      ∧ (∀ q, q ≠ p → t.port q = s.port q ∧ t.grant q = s.grant q) ∧ (t.port p).state = (s.port p).state
      ∧ ((t.port p).session.any fun y => y.identity == some ⟨v, d, r⟩ && y.number == x.number) = true
      ∧ (x.phase = some .identifying →
          ((t.port p).session.any fun y => y.trialsBegun && y.mode == (s.port p).modeNow
            && y.took (s.port p) (s.grant p) (t.computedSteps false (s.port p).modeNow y)) = true
            ∧ (t.port p).timers.identityWait = none)
      ∧ (x.boundSlot = some k → (x.identity.any fun i => i.vendor == v && i.product == d) = true →
          ∀ e, s.entry k = some e →
          ((t.port p).session.any fun y => y.boundSlot == some k && y.verdicts == x.verdicts) = true
            ∧ t.entry k = some (if e.release = r then e else { e with release := r, tallies := e.tallies.halve })
            ∧ (∀ n, n ≠ k → t.entry n = s.entry n) ∧ t.memory.recency = k :: (s.memory.recency.filter fun n => n ≠ k)
            ∧ t.memory.orderCount =
              (if t.memory.recency = s.memory.recency then s.memory.orderCount else s.memory.orderCount + 1)
            ∧ t.group 8 = s.group 8
            ∧ (t.group (portGroup p)).pending &&& Kind.identity.mask = (s.group (portGroup p)).pending &&& Kind.identity.mask
            ∧ Replied t .ok tag 0x15 (t.postBytes p x 3 (BitVec.ofNat 8 k.val) false (e.release != r) 0)
            ∧ (e.release = r → x.phase ≠ some .identifying →
                t.port p = { s.port p with session := some { x with identity := some ⟨v, d, r⟩ } }
                  ∧ t.budget = s.budget ∧ t.notices = s.notices)
            ∧ (e.release ≠ r → CallMade s t p x))
      ∧ (x.boundSlot = none ∨ (x.identity.all fun i => !(i.vendor == v && i.product == d)) = true →
          (x.boundSlot = none →
            (t.group (portGroup p)).pending &&& Kind.identity.mask = (s.group (portGroup p)).pending &&& Kind.identity.mask) ∧
          (x.boundSlot.isSome = true → (t.group (portGroup p)).pending &&& Kind.identity.mask ≠ 0) ∧
          (∀ e, (s.memoryForBind x).entry k = some e → e.vendor = v → e.product = d →
            ((t.port p).session.any fun y => y.boundSlot == some k && y.verdicts == x.verdictsFolded) = true
              ∧ t.entry k = some { e with
                  release := r, users := e.users + 1,
                  tallies := (if e.release = r then e.tallies else e.tallies.halve).foldAll
                    (if e.pinned.isSome then [] else x.pendingVerdicts) }
              ∧ (∀ n, n ≠ k → t.entry n = (s.memoryForBind x).entry n)
              ∧ t.memory.recency = k :: (s.memory.recency.filter fun n => n ≠ k)
              ∧ t.memory.orderCount =
              (if t.memory.recency = s.memory.recency then s.memory.orderCount else s.memory.orderCount + 1)
              ∧ t.group 8 = s.group 8
              ∧ Replied t .ok tag 0x15 (t.postBytes p x 1 (BitVec.ofNat 8 k.val) x.boundSlot.isSome (e.release != r)
                  (if e.pinned.isSome then 0 else x.pendingVerdicts.length))
              ∧ CallMade s t p x) ∧
          ((∀ n, ((s.memoryForBind x).entry n).all fun e => !(e.vendor == v && e.product == d)) →
            (((s.entry k = none ∧ ∀ n, n < k → (s.entry n).isSome = true)
                ∨ ((∀ n, (s.entry n).isSome = true)
                    ∧ (s.memory.recency.reverse.find? fun n =>
                        ((s.memoryForBind x).entry n).any fun e => e.pinned.isNone && e.users == 0) = some k)) →
              ((t.port p).session.any fun y => y.boundSlot == some k && y.verdicts == x.verdictsFolded) = true
                ∧ t.entry k = some {
                    vendor := v, product := d, release := r, pinned := none, users := 1,
                    tallies := Tallies.zero.foldAll x.pendingVerdicts }
                ∧ (∀ n, n ≠ k → t.entry n = (s.memoryForBind x).entry n)
                ∧ t.memory.recency = k :: (s.memory.recency.filter fun n => n ≠ k)
                ∧ t.memory.orderCount = s.memory.orderCount + 1
                ∧ (if (s.entry k).isSome then RaisedIn s t 8 .pmEvict else t.group 8 = s.group 8)
                ∧ Replied t .ok tag 0x15 (t.postBytes p x 2 (BitVec.ofNat 8 k.val) x.boundSlot.isSome false
                    x.pendingVerdicts.length)
                ∧ CallMade s t p x) ∧
            ((∀ n, ((s.memoryForBind x).entry n).any fun e => e.pinned.isSome || 0 < e.users) →
              ((t.port p).session.any fun y => y.boundSlot == none && y.verdicts == x.verdicts) = true
                ∧ t.memory = s.memoryForBind x ∧ RaisedIn s t 8 .pmFull
                ∧ Replied t .full tag 0x15 (t.postBytes p x 0 0xFF x.boundSlot.isSome false 0)
                ∧ (x.boundSlot.isSome = true → CallMade s t p x))))

/-- Port commands refused with BAD_PARAM, WRONG_STATE, BUDGET_BUSY or NO_BUDGET write their status and change nothing
(spec/10 section 10.5, spec/02 section 2.3, spec/03 section 3.7, spec/05 section 5.2, spec/06 section 6.2, spec/07
section 7.7). -/
def Obligations.RefusedCommandsChangeNothing : Prop :=
  ∀ (s : State) (tag b : Byte) (p : PortId) (v d r : Half) (rec : PolicyBytes),
    s.host.inReset = false →
    (7 < b.toNat → ∀ c, c ∈ ([.setPolicy tag b rec, .getPolicy tag b, .enablePort tag b, .disablePort tag b, .getPort tag b,
        .postIdentity tag b v d r, .retryTrials tag b, .resetPort tag b] : List Instr) →
      ∃ t, exec c s = .next t ∧ SameBlocks s t ∧ t.host.response.map (·.status) = some .badParam) ∧
    ((s.port p).state ≠ .disabled →
      ∃ t, exec (.enablePort tag (BitVec.ofNat 8 p.val)) s = .next t ∧ SameBlocks s t
        ∧ Replied t .wrongState tag 0x12 []) ∧
    ((s.port p).state = .disabled → s.budget.pendingTotal.isSome = true →
      ∃ t, exec (.enablePort tag (BitVec.ofNat 8 p.val)) s = .next t ∧ SameBlocks s t
        ∧ Replied t .budgetBusy tag 0x12 []) ∧
    ((s.port p).state = .disabled → s.budget.pendingTotal = none → s.headroom < 500 →
      ∃ t, exec (.enablePort tag (BitVec.ofNat 8 p.val)) s = .next t ∧ SameBlocks s t ∧ Replied t .noBudget tag 0x12 []) ∧
    ((s.port p).state = .disabled → ∀ c, c ∈ ([.disablePort tag (BitVec.ofNat 8 p.val),
        .resetPort tag (BitVec.ofNat 8 p.val)] : List Instr) →
      ∃ t, exec c s = .next t ∧ SameBlocks s t ∧ t.host.response.map (·.status) = some .wrongState) ∧
    ((s.port p).state ≠ .occupied → (s.port p).state ≠ .hold →
      ∃ t, exec (.postIdentity tag (BitVec.ofNat 8 p.val) v d r) s = .next t ∧ SameBlocks s t
        ∧ Replied t .wrongState tag 0x15 []) ∧
    (¬((s.port p).state = .occupied ∧ s.phase p = some .steady) →
      ∃ t, exec (.retryTrials tag (BitVec.ofNat 8 p.val)) s = .next t ∧ SameBlocks s t
        ∧ Replied t .wrongState tag 0x16 [])

/-- SET_BUDGET applies a total no less than the sum of the grants at once and raises BUDGET_APPLIED (spec/06 section
6.4). -/
def Obligations.SetBudgetAppliesAFittingTotal : Prop :=
  ∀ (s : State) (tag : Byte) (v : Half),
    s.host.inReset = false →
    (¬(4000 ≤ v.toNat ∧ v.toNat ≤ 20000 ∧ v.toNat % 100 = 0) →
      ∃ t, exec (.setBudget tag v) s = .next t ∧ SameBlocks s t ∧ Replied t .badParam tag 0x03 []) ∧
    ((4000 ≤ v.toNat ∧ v.toNat ≤ 20000 ∧ v.toNat % 100 = 0) →
      (s.budget.pendingTotal.isSome = true →
        ∃ t, exec (.setBudget tag v) s = .next t ∧ SameBlocks s t ∧ Replied t .budgetBusy tag 0x03 []) ∧
      (s.budget.pendingTotal = none → s.sumGrants ≤ v.toNat →
        ∃ t, exec (.setBudget tag v) s = .next t ∧ t.budget.total = v.toNat ∧ t.budget.pendingTotal = none
          ∧ RaisedIn s t 8 .budgetApplied ∧ Replied t .ok tag 0x03 [0, 0, hiByte v, loByte v, 0, 0]
          ∧ t.budget.victims = s.budget.victims ∧ t.budget.waitLimit = s.budget.waitLimit ∧ t.memory = s.memory
          ∧ t.pending = s.pending
          ∧ (∀ q, s.queued q = false →
              t.port q = s.port q ∧ t.grant q = s.grant q ∧ t.group (portGroup q) = s.group (portGroup q))
          ∧ (∀ e, s.budget.queue.head? = some e →
              (v.toNat - s.sumGrants < e.sig.offered - s.grant e.port →
                t.budget.queue = s.budget.queue ∧ t.ports = s.ports ∧ t.budget.grants = s.budget.grants) ∧
              ((s.budget.queue.map (·.port)).Nodup → e.sig.offered - s.grant e.port ≤ v.toNat - s.sumGrants →
                t.grant e.port = e.sig.offered ∧ t.queued e.port = false
                  ∧ t.group (portGroup e.port) = { pending := (s.group (portGroup e.port)).pending ||| Kind.grant.mask,
                                                   epoch := (s.group (portGroup e.port)).epoch + 1 }))))

/-- SET_BUDGET below the sum of the grants chooses victims by priority, grant and number until the total fits, and sheds
each toward P (spec/06 section 6.4). -/
def Obligations.SetBudgetShedsUntilTheTotalFits : Prop :=
  ∀ (s : State) (tag : Byte) (v : Half),
    s.host.inReset = false → SessionLaw s → QueueLaw s → (4000 ≤ v.toNat ∧ v.toNat ≤ 20000
      ∧ v.toNat % 100 = 0) → s.budget.pendingTotal = none →
    v.toNat < s.sumGrants →
    ∃ t, exec (.setBudget tag v) s = .next t ∧ s.countedSum (s.victimsFor v.toNat) ≤ v.toNat
      ∧ (s.victimsFor v.toNat).Nodup
      ∧ (∀ p, p ∈ s.victimsFor v.toNat → 500 < s.grant p ∧ (t.group (portGroup p)).pending &&& Kind.shed.mask ≠ 0)
      ∧ (∀ p, t.victim p = true → p ∈ s.victimsFor v.toNat)
      ∧ ((t.budget.pendingTotal = some v.toNat ∧ t.budget.total = s.budget.total ∧ ∃ p, t.victim p = true)
          ∨ (t.budget.pendingTotal = none ∧ t.budget.total = v.toNat ∧ ∀ p, t.victim p = false))
      ∧ Replied t .ok tag 0x03 (t.budgetData (s.victimsFor v.toNat).length)
      ∧ t.budget.waitLimit = s.budget.waitLimit ∧ t.memory = s.memory ∧ t.pending = s.pending
      ∧ (∀ i : Fin 8, ∀ p, (s.victimsFor v.toNat)[i.val]? = some p →
          v.toNat < s.countedSum ((s.victimsFor v.toNat).take i.val) ∧
          ∀ q, q ∉ (s.victimsFor v.toNat).take i.val → 500 < s.grant q → q ≠ p →
            (s.port p).policy.priority < (s.port q).policy.priority
              ∨ ((s.port p).policy.priority = (s.port q).policy.priority
                  ∧ (s.grant q < s.grant p ∨ (s.grant q = s.grant p ∧ q < p))))
      ∧ (∀ p, p ∈ s.victimsFor v.toNat →
          ((s.port p).state = .idle → t.port p = s.port p ∧ t.grant p = s.grant p) ∧
          (∀ x, (s.port p).session = some x →
            ((s.port p).state = .occupied → x.phase.isSome = true → (s.port p).switchOn = true →
              t.queued p = false
              ∧ (((s.port p).presented ≠ some .P ∨ (s.port p).rePresent.isSome = true) →
                  t.grant p = s.grant p
                    ∧ (t.port p).presented = (if (s.port p).rePresent.isSome then (s.port p).presented else none)
                  ∧ (t.port p).rePresent =
                      (match (s.port p).rePresent with
                       | some r => some { r with target := .P, requester := .shed }
                       | none => some ⟨.P, 50, false, .shed, (s.port p).presented⟩)
                  ∧ ((t.port p).session.any fun y => y.shed && y.trialsBegun && !y.recomputeDue && y.steps == []
                      && y.phase == some .representing && y.target == some .P && y.verdicts == x.verdicts
                      && (x.phase != some .evaluating || (y.sum == 0 && y.count == 0 && !y.probeSeen))) = true)
              ∧ ((s.port p).presented = some .P → (s.port p).rePresent = none →
                  t.grant p = 500 ∧ (t.group (portGroup p)).pending &&& Kind.steady.mask ≠ 0
                  ∧ ((t.port p).session.any fun y => y.shed && y.trialsBegun && !y.recomputeDue && y.steps == []
                      && y.phase == some .steady && y.verdicts == x.verdicts) = true)
              ∧ (t.port p).timers.settle = none ∧ (t.port p).timers.identityWait = none
              ∧ (t.port p).timers.evaluation = none) ∧
            ((s.port p).state = .hold → x.held.isSome = true → (s.port p).switchOn = true →
              ((s.port p).presented ≠ some .P ∨ (s.port p).rePresent.isSome = true) →
              t.grant p = s.grant p ∧ (t.port p).timers.hold = (s.port p).timers.hold
                ∧ (t.port p).rePresent =
                    (match (s.port p).rePresent with
                     | some r => some { r with target := .P, requester := .shed }
                     | none => some ⟨.P, 50, false, .shed, (s.port p).presented⟩)
                ∧ ((t.port p).session.any fun y => y.shed && y.trialsBegun && y.held == some .representing
                    && y.target == some .P && y.verdicts == x.verdicts
                    && (x.held != some .evaluating || (y.sum == 0 && y.count == 0 && !y.probeSeen))) = true) ∧
            ((s.port p).state = .recovery ∨ (s.port p).state = .powering →
              t.grant p = 500 ∧ (t.port p).timers = (s.port p).timers
                ∧ ((t.port p).session.any fun y => y.shed && y.trialsBegun && y.presented == some .P
                    && y.boundSlot == x.boundSlot && y.verdicts == x.verdicts) = true)))

/-- The CRC-8 has polynomial 07h, initial value 00h, most significant bit first, and closes both kinds of frame (R192).
-/
def Obligations.CrcIsTheCrc8OfTheFrame : Prop :=
  ∀ (bytes : List Byte) (r b : Byte) (i : Instr) (resp : Response),
    crc8 [] = 0x00 ∧ crc8 (bytes ++ [b]) = crcByte (crc8 bytes) b
      ∧ crcByte r b = (crcShift ∘ crcShift ∘ crcShift ∘ crcShift ∘ crcShift ∘ crcShift ∘ crcShift ∘ crcShift) (r ^^^ b)
      ∧ crcShift r = (if r.getLsbD 7 then (r <<< 1) ^^^ 0x07 else r <<< 1)
      ∧ crc8 [0x31, 0x32, 0x33, 0x34, 0x35, 0x36, 0x37, 0x38, 0x39] = 0xF4
      ∧ crc8 (bytes ++ [crc8 bytes]) = 0x00
      ∧ (∀ c, encodeCommand i = some c →
          encodeFrame i = some ((c.1 :: c.2.1 :: BitVec.ofNat 8 c.2.2.length :: c.2.2)
            ++ [crc8 (c.1 :: c.2.1 :: BitVec.ofNat 8 c.2.2.length :: c.2.2)]))
      ∧ resp.bytes =
          (statusCode resp.status :: resp.tag :: resp.code :: BitVec.ofNat 8 resp.data.length :: resp.data)
            ++ [crc8 (statusCode resp.status :: resp.tag :: resp.code :: BitVec.ofNat 8 resp.data.length :: resp.data)]
      ∧ encodeFrame (.getGlobals 0x01) = some [0x01, 0x05, 0x00, 0x2A]
      ∧ Response.bytes ⟨.ok, 0x01, 0x05, [3, 5]⟩ = [0x00, 0x01, 0x05, 0x02, 0x03, 0x05, 0xDE]

/-- Every host command is read back from its own frame with every operand, and the frame's bytes run as the command (log
18) (spec/10 section 10.2, spec/10 section 10.7, spec/10 section 10.8). -/
def Obligations.FrameRoundTrip : Prop :=
  ∀ (s : State) (i : Instr),
    ∀ bytes, encodeFrame i = some bytes → decodeFrame bytes = .ok i ∧ exec (.failedFrame bytes) s = exec i s

/-- A taken frame that fails a check writes the status of the first check that fails and changes nothing else (spec/10
section 10.2). -/
def Obligations.FailedFrameWritesItsStatus : Prop :=
  ∀ (s : State) (bytes : List Byte) (tag code len : Byte) (rest : List Byte),
    (s.host.inReset = false → bytes ≠ [] → ∀ st, decodeFrame bytes = .error st →
      ∃ t, exec (.failedFrame bytes) s = .next t ∧ SameBlocks s t ∧ Replied t st (bytes.getD 0 0) (bytes.getD 1 0) []) ∧
    (bytes.length < 3 → decodeFrame bytes = .error .frameShort) ∧
    (32 < len.toNat → decodeFrame (tag :: code :: len :: rest) = .error .badLength) ∧
    (len.toNat ≤ 32 → rest.length < len.toNat + 1 → decodeFrame (tag :: code :: len :: rest) = .error .frameShort) ∧
    (len.toNat ≤ 32 → len.toNat + 1 ≤ rest.length →
      crc8 (tag :: code :: len :: rest.take len.toNat) ≠ rest.getD len.toNat 0 →
      decodeFrame (tag :: code :: len :: rest) = .error .badCrc) ∧
    (len.toNat ≤ 32 → len.toNat + 1 ≤ rest.length →
      crc8 (tag :: code :: len :: rest.take len.toNat) = rest.getD len.toNat 0 →
      (parameterLength code = none → decodeFrame (tag :: code :: len :: rest) = .error .badCode) ∧
      (∀ l, parameterLength code = some l → l ≠ len.toNat →
        decodeFrame (tag :: code :: len :: rest) = .error .badLength))

/-- An address byte ends a write before it (log 1) and begins a frame or a read on a match; data bytes are added; a read
sends the slot (spec/10 section 10.1, spec/10 section 10.2, spec/10 section 10.4). -/
def Obligations.AddressAndDataBytesAssembleAFrame : Prop :=
  ∀ (s : State) (b : Byte) (acks : List Bool),
    s.host.inReset = false →
    ((s.host.frame.all fun f => f.bytes.isEmpty) = true →
      ∃ t, exec (.addressByteReceived b) s = .next t ∧ t.ports = s.ports ∧ t.budget = s.budget ∧ t.memory = s.memory
        ∧ t.notices = s.notices ∧ t.pending = s.pending ∧ t.host.response = s.host.response
        ∧ t.host.address = s.host.address ∧ t.host.ack = (b.extractLsb' 1 7 == s.host.address)
        ∧ (b.extractLsb' 1 7 = s.host.address → b.getLsbD 0 = false →
            t.host.bus = .write ∧ t.host.frame = some ⟨[], none, false⟩)
        ∧ (b.extractLsb' 1 7 = s.host.address → b.getLsbD 0 = true → t.host.bus = .read ∧ t.host.frame = none)
        ∧ (b.extractLsb' 1 7 ≠ s.host.address → t.host.bus = .notAddressed ∧ t.host.frame = none)) ∧
    (∀ f, s.host.frame = some f → f.bytes ≠ [] →
      ∃ t, exec (.addressByteReceived b) s = .next t ∧
        (∃ u, exec (.failedFrame f.bytes) s = .next u ∧ t.ports = u.ports ∧ t.budget = u.budget ∧ t.memory = u.memory
          ∧ t.notices = u.notices ∧ t.pending = u.pending ∧ t.host.response = u.host.response)) ∧
    (∀ f, s.host.frame = some f → s.host.bus = .write →
      ∃ t, exec (.dataByteReceived b) s = .next t ∧ t.ports = s.ports ∧ t.budget = s.budget ∧ t.memory = s.memory
        ∧ t.notices = s.notices ∧ t.pending = s.pending ∧ t.host.response = s.host.response
        ∧ t.host.address = s.host.address ∧ t.host.bus = .write
        ∧ (f.declared = none → f.bytes.length < 2 → t.host.ack = true
        ∧ t.host.frame = some { f with bytes := f.bytes ++ [b] })
        ∧ (f.declared = none → 2 ≤ f.bytes.length →
            t.host.ack = (decide (b.toNat ≤ 32))
              ∧ t.host.frame = some ⟨f.bytes ++ [b], some b.toNat, decide (32 < b.toNat)⟩)
        ∧ (∀ l, f.declared = some l → f.bytes.length < l + 4 →
            t.host.ack = !f.lengthFault ∧ t.host.frame = some { f with bytes := f.bytes ++ [b] })
        ∧ (∀ l, f.declared = some l → l + 4 ≤ f.bytes.length → t.host.ack = false ∧ t.host.frame = some f)) ∧
    (s.host.frame = none ∨ s.host.bus ≠ .write →
      ∃ t, exec (.dataByteReceived b) s = .next t ∧ t.ports = s.ports ∧ t.budget = s.budget ∧ t.memory = s.memory
        ∧ t.notices = s.notices ∧ t.pending = s.pending ∧ t.host = { s.host with ack := false }) ∧
    ((s.host.frame.all fun f => f.bytes.isEmpty) = true → b.extractLsb' 1 7 = s.host.address → b.getLsbD 0 = true →
      ∃ t, exec (.addressByteReceived b) s = .next t ∧
        ((acks.all id) = true → t.sent acks = some ((match s.host.response with
          | some resp => resp.bytes
          | none => [0x7F, 0x00, 0x00, 0x00, crc8 [0x7F, 0x00, 0x00, 0x00]]).getD acks.length 0xFF)) ∧
        (false ∈ acks → t.sent acks = none)) ∧
    (s.host.bus ≠ .read → s.sent acks = none)

/-- ATTn rising on a removable port in IDLE opens a session with the opening values and raises ATTACH, a victim's under
the shed (spec/02 section 2.6, spec/02 section 2.4, spec/06 section 6.4). -/
def Obligations.AttachOpensASession : Prop :=
  ∀ (s : State) (p : PortId),
    s.host.inReset = false → (s.port p).fixed = false → (s.port p).state = .idle →
    (s.victim p = false →
      ∃ t, exec (.attnRising p) s = .next t
        ∧ t.port p = { s.port p with
            pins := { (s.port p).pins with att := true }, state := .occupied, counter := (s.port p).counter + 1,
            timers := { (s.port p).timers with settle := some 20 },
            session := some {
              number := (s.port p).counter + 1, phase := some .settling, held := none, presented := (s.port p).presented,
              target := none, mode := if (s.port p).pins.hen then .data else .charge,
              policy := { trialList := (s.port p).policy.trialList, maxSig := (s.port p).policy.maxSig,
                          identityWait := (s.port p).policy.identityWait },
              trialsBegun := false, identity := none, boundSlot := none, verdicts := [], sum := 0, count := 0,
              probeSeen := false, lastMean := none, shed := false, remaining := [], current := none, recomputeDue := false,
              resumePlan := none, resumptionWindow := false } }
        ∧ RaisedIn s t (portGroup p) .attach ∧ (∀ q, q ≠ p → t.port q = s.port q
        ∧ t.group (portGroup q) = s.group (portGroup q))
        ∧ t.group 8 = s.group 8 ∧ t.budget = s.budget ∧ t.memory = s.memory ∧ t.host = s.host ∧ t.pending = s.pending) ∧
    (s.victim p = true → (s.port p).switchOn = true → ∀ r, (s.port p).rePresent = some r →
      ∃ t, exec (.attnRising p) s = .next t ∧ OthersKept p s t ∧ t.host = s.host ∧ t.memory = s.memory
        ∧ t.grant p = s.grant p ∧ t.victim p = true ∧ t.queued p = false ∧ RaisedIn s t (portGroup p) .attach
        ∧ (t.port p).state = .occupied ∧ (t.port p).presented = (s.port p).presented
        ∧ (t.port p).rePresent = some { r with target := .P, requester := .shed } ∧ (t.port p).timers.settle = none
        ∧ (t.port p).counter = (s.port p).counter + 1
        ∧ ((t.port p).session.any fun y => y.number == (s.port p).counter + 1 && y.phase == some .representing
            && y.target == some .P && y.shed && y.trialsBegun && y.steps == [] && !y.recomputeDue && y.identity == none
            && y.boundSlot == none && y.verdicts == []) = true)

/-- ATTn rising in HOLD bounces a held EVALUATING, else goes back to a held STEADY or to a new settle with no target
(log 13) (spec/02 section 2.7, spec/02 section 2.4, spec/03 section 3.5, spec/06 section 6.4). -/
def Obligations.ReturnInHoldBouncesOrResumes : Prop :=
  ∀ (s : State) (p : PortId),
    s.host.inReset = false → (s.port p).fixed = false → (s.port p).state = .hold →
    ∀ x, (s.port p).session = some x →
    (s.victim p = false →
      ∃ t, exec (.attnRising p) s = .next t ∧ OthersKept p s t ∧ t.host = s.host ∧ (t.port p).state = .occupied
        ∧ (t.port p).presented = (s.port p).presented ∧ (t.port p).rePresent = (s.port p).rePresent
        ∧ t.grant p = s.grant p
        ∧ (t.port p).timers.hold = none ∧ (t.port p).counter = (s.port p).counter
        ∧ (t.group (portGroup p)).pending &&& Kind.attach.mask ≠ 0
        ∧ (x.held = some .evaluating → ∀ st, x.current = some st →
            (t.port p).session = some { x with
              phase := some .settling, held := none, current := none, target := none, sum := 0, count := 0, probeSeen := false,
              verdicts := x.verdicts.filter (fun w => w.sig ≠ st.sig) ++ [⟨st.sig, .rejected, x.boundSlot.isSome⟩] }
            ∧ (t.port p).timers.settle = some 20 ∧ (t.group (portGroup p)).pending &&& Kind.verdict.mask ≠ 0
            ∧ (t.group (portGroup p)).epoch = (s.group (portGroup p)).epoch + 2
            ∧ (∀ n, x.boundSlot = some n → ∀ e, s.entry n = some e → e.pinned = none →
                (t.entry n).any (fun f => f.tallies == e.tallies.modify (Tally.fold false) st.sig) = true))
        ∧ (x.held = some .steady →
            (t.port p).session = some { x with phase := some .steady, held := none, current := none }
            ∧ (t.port p).timers.settle = (s.port p).timers.settle ∧ t.memory = s.memory
            ∧ (t.group (portGroup p)).epoch = (s.group (portGroup p)).epoch + 1)
        ∧ (x.held ≠ some .evaluating → x.held ≠ some .steady →
            (t.port p).session = some { x with phase := some .settling, held := none, current := none, target := none }
            ∧ (t.port p).timers.settle = some 20 ∧ t.memory = s.memory
            ∧ (t.group (portGroup p)).epoch = (s.group (portGroup p)).epoch + 1)) ∧
    (s.victim p = true → x.held ≠ some .evaluating → (s.port p).switchOn = true → ∀ r, (s.port p).rePresent = some r →
      ∃ t, exec (.attnRising p) s = .next t ∧ OthersKept p s t ∧ t.host = s.host ∧ t.memory = s.memory
        ∧ t.grant p = s.grant p ∧ t.victim p = true ∧ t.queued p = false ∧ RaisedIn s t (portGroup p) .attach
        ∧ (t.port p).state = .occupied ∧ (t.port p).presented = (s.port p).presented
        ∧ (t.port p).rePresent = some { r with target := .P, requester := .shed }
        ∧ (t.port p).timers.settle = none ∧ (t.port p).timers.hold = none ∧ (t.port p).counter = (s.port p).counter
        ∧ ((t.port p).session.any fun y => y.number == x.number && y.phase == some .representing && y.held == none
            && y.target == some .P && y.shed && y.trialsBegun && y.steps == [] && !y.recomputeDue && y.identity == x.identity
            && y.boundSlot == x.boundSlot && y.verdicts == x.verdicts) = true)

/-- ATTn falling on a removable port in OCCUPIED moves it to HOLD with the phase held and the hold timer started
(spec/02 section 2.7). -/
def Obligations.DetachStartsTheHold : Prop :=
  ∀ (s : State) (p : PortId),
    s.host.inReset = false →
    ((s.port p).fixed = false → (s.port p).state = .occupied → ∀ x, (s.port p).session = some x →
      ∃ t, exec (.attnFalling p) s = .next t ∧ OthersKept p s t ∧ t.host = s.host ∧ t.memory = s.memory
        ∧ t.port p = { s.port p with
            pins := { (s.port p).pins with att := false }, state := .hold,
            timers := { (s.port p).timers with
              settle := none, identityWait := none, evaluation := none, hold := some (100 * (s.port p).policy.holdCode) },
            session := some { x with phase := none, held := x.phase } }
        ∧ t.grant p = s.grant p ∧ t.queued p = false ∧ t.group (portGroup p) = s.group (portGroup p)) ∧
    ((s.port p).fixed = true ∨ (s.port p).state ≠ .occupied →
      ∃ t, exec (.attnFalling p) s = .next t ∧ OnlyPort p s t
        ∧ t.port p = { s.port p with pins := { (s.port p).pins with att := false } })

/-- HENn rising turns a charge-only signature presented or targeted toward P; HENn falling only lets a STEADY session
climb (spec/01 section 1.3, spec/03 section 3.6, spec/03 section 3.3, spec/02 section 2.7, spec/06 section 6.3). -/
def Obligations.HubEdgesTakeAndGiveBackTheLines : Prop :=
  ∀ (s : State) (p : PortId),
    s.host.inReset = false →
    ((s.port p).hubTakes = true →
      ∃ t, exec (.hennRising p) s = .next t ∧ OthersKept p s t ∧ t.host = s.host ∧ (t.port p).pins.hen = true
        ∧ t.queued p = false ∧ t.grant p = s.grant p ∧ t.memory = s.memory ∧ (t.port p).state = (s.port p).state
        ∧ (t.port p).timers.settle = none ∧ (t.port p).timers.identityWait = none ∧ (t.port p).timers.evaluation = none
        ∧ ((s.port p).rePresent = none → ∀ c, (s.port p).presented = some c →
            (t.port p).presented = none ∧ (t.port p).detector = .off
              ∧ (t.port p).rePresent = some ⟨.P, 50, true, .hub, some c⟩)
        ∧ (∀ r, (s.port p).rePresent = some r →
            (t.port p).presented = (s.port p).presented
              ∧ (t.port p).rePresent = some { r with target := .P, hubRetarget := true, requester := .hub })
        ∧ (∀ x, (s.port p).session = some x →
            ((t.port p).session.any fun y => y.target == some .P && y.current == none
              && y.phase == x.phase.map (fun _ => .representing) && y.held == x.held.map (fun _ => .representing)
              && y.verdicts == x.verdicts && y.number == x.number
              && (!(x.phase == some .evaluating || x.held == some .evaluating)
                  || (y.sum == 0 && y.count == 0 && !y.probeSeen))) = true)) ∧
    ((s.port p).hubTakes = false → (s.port p).waitsChargeOnly = false →
      ∃ t, exec (.hennRising p) s = .next t ∧ OnlyPort p s t
        ∧ t.port p = { s.port p with pins := { (s.port p).pins with hen := true } }) ∧
    ((s.port p).hubTakes = false → (s.port p).waitsChargeOnly = true → ∀ x, (s.port p).session = some x →
      ∃ t, exec (.hennRising p) s = .next t ∧ OthersKept p s t ∧ t.host = s.host ∧ (t.port p).pins.hen = true
        ∧ t.memory = s.memory
        ∧ ((t.port p).session.any fun y => y.mode == .data && !y.recomputeDue && y.verdicts == x.verdicts
            && y.took (s.port p) (s.grant p) (s.computedSteps false .data x)) = true
        ∧ t.budget.queue = (t.budget.queue.filter fun e => e.port ≠ p) ++ (t.budget.queue.filter fun e => e.port = p)
        ∧ (t.budget.queue.filter fun e => e.port ≠ p) <:+ (s.budget.queue.filter fun e => e.port ≠ p)
        ∧ ((t.budget.queue.filter fun e => e.port = p) = []
            ∨ ∃ sig, (t.budget.queue.filter fun e => e.port = p) = [⟨p, sig, 200 * s.budget.waitLimit⟩])) ∧
    ((s.port p).state = .occupied → (s.port p).policy.upgradeOnRelease = true → ∀ x, (s.port p).session = some x →
      x.phase = some .steady → x.shed = false →
      ∃ t, exec (.hennFalling p) s = .next t ∧ OthersKept p s t ∧ t.host = s.host ∧ (t.port p).pins.hen = false
        ∧ t.memory = s.memory
        ∧ ((t.port p).session.any fun y => y.mode == .charge && !y.recomputeDue && y.verdicts == x.verdicts
            && y.took (s.port p) (s.grant p) (s.computedSteps false .charge x)) = true) ∧
    ((s.port p).state ≠ .occupied ∨ (s.port p).policy.upgradeOnRelease = false ∨ s.phase p ≠ some .steady
        ∨ (s.port p).session.any (·.shed) = true →
      ∃ t, exec (.hennFalling p) s = .next t ∧ OnlyPort p s t
        ∧ t.port p = { s.port p with pins := { (s.port p).pins with hen := false } })

/-- LOKn rising on a fixed port clears the recovery count and stops the link timer; falling starts it in OCCUPIED
(spec/07 section 7.4). -/
def Obligations.LinkEdgesDriveTheLinkTimer : Prop :=
  ∀ (s : State) (p : PortId),
    s.host.inReset = false →
    (∃ t, exec (.loknRising p) s = .next t ∧ OnlyPort p s t
      ∧ t.port p = (if (s.port p).fixed then
          { s.port p with
            pins := { (s.port p).pins with lok := true }, recoveryCount := 0,
            timers := { (s.port p).timers with link := none } }
        else { s.port p with pins := { (s.port p).pins with lok := true } })) ∧
    ((s.port p).fixed = true → (s.port p).state = .occupied → (s.port p).session.any (·.resumptionWindow) = false →
      ∃ t, exec (.loknFalling p) s = .next t ∧ OnlyPort p s t
        ∧ t.port p = { s.port p with
            pins := { (s.port p).pins with lok := false },
            timers := { (s.port p).timers with
              link := if (s.port p).policy.linkTimeout = 0 then none
                      else some (40 * 2 ^ ((s.port p).policy.linkTimeout - 1)) } }) ∧
    ((s.port p).fixed = false ∨ (s.port p).state ≠ .occupied ∨ (s.port p).session.any (·.resumptionWindow) = true →
      ∃ t, exec (.loknFalling p) s = .next t ∧ OnlyPort p s t
        ∧ t.port p = { s.port p with pins := { (s.port p).pins with lok := false } })

/-- The probe band and the 40 ms timer move the detector and set probe-seen; the taps and PENn follow presented
condition, detector and switch (spec/01 section 1.4, spec/01 section 1.2, spec/02 section 2.1). -/
def Obligations.ProbeEventsDriveTheDetector : Prop :=
  ∀ (s : State) (p : PortId),
    (s.host.inReset = false →
      (∃ t, exec (.probeBandEntered p) s = .next t ∧ OnlyPort p s t
        ∧ t.port p = (if (s.port p).detector = .watching then
            { s.port p with
              pins := { (s.port p).pins with probeBand := true }, detector := .timing,
              timers := { (s.port p).timers with probe := some 8 } }
          else { s.port p with pins := { (s.port p).pins with probeBand := true } })) ∧
      (∃ t, exec (.probeBandLeft p) s = .next t ∧ OnlyPort p s t
        ∧ ((s.port p).detector = .timing →
            t.port p = { s.port p with
              pins := { (s.port p).pins with probeBand := false }, detector := .watching,
              timers := { (s.port p).timers with probe := none } })
        ∧ ((s.port p).detector = .replying →
            t.port p = { s.port p with pins := { (s.port p).pins with probeBand := false }, detector := .watching })
        ∧ ((s.port p).detector = .off ∨ (s.port p).detector = .watching →
            t.port p = { s.port p with pins := { (s.port p).pins with probeBand := false } }))) ∧
    ((s.port p).timers.probe.isSome = true → (s.port p).detector = .timing →
      ∃ t, exec (.probeTimerExpiry p) s = .next t ∧ OnlyPort p s t
        ∧ t.port p = { s.port p with
            detector := .replying, timers := { (s.port p).timers with probe := none },
            session := (s.port p).session.map fun x => { x with probeSeen := true } }) ∧
    ((s.port p).timers.probe = none → ∃ t, exec (.probeTimerExpiry p) s = .next t ∧ t = s) ∧
    (((s.port p).presented = none ∨ (s.port p).presented = some .P →
        (s.port p).daTap = .released ∧ (s.port p).dbTap = .released) ∧
      ((s.port p).presented = some .A →
        (s.port p).daTap = .released
          ∧ (s.port p).dbTap = (if (s.port p).detector = .replying then .reply060 else .released)) ∧
      ((s.port p).presented = some .L → (s.port p).daTap = .divider20 ∧ (s.port p).dbTap = .divider20) ∧
      ((s.port p).presented = some .B → (s.port p).daTap = .bridged ∧ (s.port p).dbTap = .bridged) ∧
      ((s.port p).presented = some .H → (s.port p).daTap = .divider20 ∧ (s.port p).dbTap = .divider27) ∧
      ((s.port p).presented = some .F → (s.port p).daTap = .divider27 ∧ (s.port p).dbTap = .divider27)) ∧
    ((s.port p).linesLaw → ((s.port p).pen = true ↔
      (s.port p).state = .powering ∨ (s.port p).state = .idle ∨ (s.port p).state = .occupied ∨ (s.port p).state = .hold))

/-- A reading feeds the evaluation window; two in a row above the trip level switch the port off into FAULT (spec/07
section 7.1, spec/07 section 7.2, spec/03 section 3.4). -/
def Obligations.ReadingFeedsTheWindowAndTrips : Prop :=
  ∀ (s : State) (p : PortId) (r : Nat),
    s.host.inReset = false → r % 10 = 0 → r ≤ 4000 →
    (((s.port p).state = .idle ∨ (s.port p).state = .occupied ∨ (s.port p).state = .hold) →
      s.grant p + s.grant p / 4 < r → (s.port p).overcurrent = true →
      ∃ t, exec (.currentReading p r) s = .next t ∧ OthersKept p s t ∧ t.host = s.host
        ∧ t.port p = { s.port p with
            state := .fault, switchOn := false, presented := none, rePresent := none, detector := .off, overcurrent := false,
            latest := r, tripCount := (s.port p).tripCount + 1, session := none,
            timers := { Timers.stopped with coolDown := some 400 } }
        ∧ t.grant p = 500 ∧ t.queued p = false ∧ t.victim p = false ∧ RaisedIn s t (portGroup p) .fault) ∧
    (((s.port p).state ≠ .idle ∧ (s.port p).state ≠ .occupied ∧ (s.port p).state ≠ .hold)
        ∨ r ≤ s.grant p + s.grant p / 4 ∨ (s.port p).overcurrent = false →
      ∃ t, exec (.currentReading p r) s = .next t ∧ OnlyPort p s t
        ∧ t.port p = { s.port p with
            latest := r,
            overcurrent :=
              if (s.port p).state = .idle ∨ (s.port p).state = .occupied ∨ (s.port p).state = .hold then
                decide (s.grant p + s.grant p / 4 < r)
              else (s.port p).overcurrent,
            session := (s.port p).session.map fun x =>
              if x.phase = some .evaluating then { x with sum := x.sum + r, count := x.count + 1 } else x })

/-- The re-present timer presents its target, lets the grant fall and runs the continuation of requester, phase and port
state (logs 10, 11 and 16) (spec/01 section 1.5, spec/02 section 2.5, spec/02 section 2.7, spec/03 section 3.4, spec/03
section 3.6, spec/03 section 3.7, spec/06 section 6.2, spec/07 section 7.5, spec/06 section 6.4). -/
def Obligations.RePresentEndPresentsItsTarget : Prop :=
  ∀ (s : State) (p : PortId),
    QueueLaw s → ∀ r, (s.port p).rePresent = some r →
    ((s.port p).session = none →
      ∃ t, exec (.rePresentTimerExpiry p) s = .next t ∧ OthersKept p s t ∧ t.host = s.host
        ∧ (t.port p).presented = some r.target ∧ (t.port p).rePresent = none ∧ (t.port p).state = (s.port p).state
        ∧ (t.port p).detector =
            (if r.target = .A then (if (s.port p).pins.probeBand then .timing else .watching) else .off)
        ∧ t.grant p = min (s.grant p) r.target.offered ∧ t.group (portGroup p) = s.group (portGroup p)) ∧
    (∀ x, (s.port p).session = some x → (s.port p).state = .occupied → x.phase = some .representing →
      x.resumptionWindow = false →
      (∀ st, x.current = some st → st.kind = .evaluate → r.requester = .sequencer → r.hubRetarget = false →
        ∃ t, exec (.rePresentTimerExpiry p) s = .next t ∧ OthersKept p s t ∧ t.host = s.host
          ∧ (t.port p).presented = some r.target ∧ (t.port p).rePresent = none
          ∧ (t.port p).timers.evaluation = some (200 * (s.port p).policy.evaluationWindow)
          ∧ (t.port p).session = some { x with
              phase := some .evaluating, presented := some r.target, target := none, sum := 0, count := 0,
              probeSeen := false }
          ∧ t.grant p = min (s.grant p) r.target.offered ∧ t.group (portGroup p) = s.group (portGroup p)) ∧
      (r.requester = .shed →
        ∃ t, exec (.rePresentTimerExpiry p) s = .next t ∧ OthersKept p s t ∧ t.host = s.host
          ∧ (t.port p).presented = some r.target ∧ (t.port p).rePresent = none ∧ (t.port p).tripCount = 0
          ∧ (t.port p).session = some { x with
              phase := some .steady, presented := some r.target, target := none, remaining := [], current := none }
          ∧ t.grant p = min (s.grant p) r.target.offered ∧ RaisedIn s t (portGroup p) .steady) ∧
      (r.requester = .sequencer → r.hubRetarget = false → (x.current.all fun st => st.kind == .present) = true →
        ∃ t, exec (.rePresentTimerExpiry p) s = .next t ∧ OthersKept p s t ∧ t.host = s.host ∧ t.memory = s.memory
          ∧ (t.port p).tripCount = 0
          ∧ (t.group (portGroup p)).pending &&& Kind.steady.mask ≠ 0
          ∧ (x.recomputeDue = true → x.shed = false →
              ((t.port p).session.any fun y => y.verdicts == x.verdicts
                  && y.reAimed t { s.port p with presented := some r.target, rePresent := none } (min (s.grant p) r.target.offered)) = true
              ∧ (t.aims x { s.port p with presented := some r.target, rePresent := none } (t.computedSteps false (s.port p).modeNow x) = false →
                  (t.port p).presented = some r.target ∧ (t.port p).rePresent = none
                    ∧ t.grant p = min (s.grant p) r.target.offered))
          ∧ (x.recomputeDue = false →
              (t.port p).presented = some r.target ∧ (t.port p).rePresent = none
                ∧ t.grant p = min (s.grant p) r.target.offered
                ∧ (t.port p).session = some { x with phase := some .steady, presented := some r.target, target := none, remaining := [], current := none }
                ∧ RaisedIn s t (portGroup p) .steady)) ∧
      (r.requester ≠ .shed → r.hubRetarget = true ∨ r.requester = .hub →
        ∃ t, exec (.rePresentTimerExpiry p) s = .next t ∧ OthersKept p s t ∧ t.host = s.host ∧ t.memory = s.memory
          ∧ (t.port p).state = .occupied
          ∧ ((t.port p).session.any fun y => y.mode == (s.port p).modeNow && !y.recomputeDue && y.verdicts == x.verdicts
            && y.took { s.port p with presented := some r.target, rePresent := none } (min (s.grant p) r.target.offered)
              (s.computedSteps false (s.port p).modeNow x)) = true)) ∧
    (∀ x, (s.port p).session = some x → (s.port p).state = .occupied →
      (x.phase = some .settling ∨ x.phase = some .identifying →
        ∃ t, exec (.rePresentTimerExpiry p) s = .next t ∧ OthersKept p s t ∧ t.host = s.host ∧ t.memory = s.memory
          ∧ (t.port p).presented = some r.target ∧ (t.port p).rePresent = none
          ∧ t.grant p = min (s.grant p) r.target.offered ∧ t.group (portGroup p) = s.group (portGroup p)
          ∧ (t.port p).timers.settle = (s.port p).timers.settle
          ∧ (t.port p).timers.identityWait = (s.port p).timers.identityWait
          ∧ (t.port p).session = some { x with presented := some r.target, target := none }) ∧
      (x.phase = some .waitingBudget →
        ∃ t, exec (.rePresentTimerExpiry p) s = .next t ∧ OthersKept p s t ∧ t.host = s.host ∧ t.memory = s.memory
          ∧ (s.grant p ≤ r.target.offered → t.budget = s.budget ∧ t.notices = s.notices)
          ∧ (t.queued p = true → (t.port p).presented = some r.target ∧ (t.port p).rePresent = none
          ∧ t.grant p = min (s.grant p) r.target.offered
              ∧ (t.port p).session = some { x with presented := some r.target, target := x.current.map (·.sig) }))) ∧
    (∀ x, (s.port p).session = some x → (s.port p).state = .hold → x.phase = none → ∀ h, x.held = some h →
      ∃ t, exec (.rePresentTimerExpiry p) s = .next t ∧ OthersKept p s t ∧ t.host = s.host ∧ t.memory = s.memory
        ∧ (t.port p).presented = some r.target ∧ (t.port p).rePresent = none
        ∧ t.grant p = min (s.grant p) r.target.offered
        ∧ (t.port p).state = .hold ∧ (t.port p).timers.hold = (s.port p).timers.hold
        ∧ ((r.requester = .shed ∨ (r.hubRetarget = false ∧ h = .representing ∧ r.requester = .sequencer
              ∧ (x.current.all fun st => st.kind == .present) = true)) →
            (t.port p).session = some { x with
              held := some .steady, presented := some r.target, target := none, remaining := [], current := none }
            ∧ (t.port p).tripCount = 0 ∧ RaisedIn s t (portGroup p) .steady)
        ∧ ((r.requester ≠ .shed ∧ (r.hubRetarget = true ∨ (h = .representing ∧ r.requester = .sequencer
              ∧ (x.current.any fun st => st.kind == .evaluate) = true))) →
            (t.port p).session = some { x with held := some .representing, presented := some r.target, target := none }
            ∧ t.group (portGroup p) = s.group (portGroup p))
        ∧ (r.requester ≠ .shed → r.hubRetarget = false → h = .settling ∨ h = .identifying ∨ h = .waitingBudget →
            (t.port p).session = some { x with presented := some r.target, target := none }
              ∧ t.group (portGroup p) = s.group (portGroup p))) ∧
    (∀ x, (s.port p).session = some x → (s.port p).state = .occupied → x.phase = some .representing →
      x.resumptionWindow = true →
      ∃ t, exec (.rePresentTimerExpiry p) s = .next t ∧ OthersKept p s t ∧ t.host = s.host ∧ t.memory = s.memory
        ∧ (t.port p).state = .occupied
        ∧ (t.port p).timers.link =
              (if (s.port p).pins.lok then (s.port p).timers.link
               else if (s.port p).policy.linkTimeout = 0 then none
               else some (40 * 2 ^ ((s.port p).policy.linkTimeout - 1)))
            ∧ ((t.port p).session.any fun y => y.resumePlan == none && !y.resumptionWindow) = true
        ∧ ((r.requester = .shed ∨ x.shed = true) →
            (t.port p).session = some { x with
              phase := some .steady, presented := some r.target, target := none, remaining := [], current := none,
              resumePlan := none, resumptionWindow := false }
            ∧ (t.port p).presented = some r.target ∧ (t.port p).rePresent = none ∧ (t.port p).tripCount = 0
            ∧ t.grant p = min (s.grant p) r.target.offered ∧ RaisedIn s t (portGroup p) .steady)
        ∧ (r.requester ≠ .shed → x.shed = false →
            (r.hubRetarget = true ∨ r.requester = .hub
                ∨ x.resumePlan = some .continueTrials →
              ((t.port p).session.any fun y => y.mode == (s.port p).modeNow && !y.recomputeDue && y.verdicts == x.verdicts
            && y.took { s.port p with presented := some r.target, rePresent := none } (min (s.grant p) r.target.offered)
              (s.computedSteps false (s.port p).modeNow x)) = true) ∧
            (r.hubRetarget = false → r.requester ≠ .hub → x.resumePlan = some .settle →
              (t.port p).session = some { x with
                phase := some .settling, presented := some r.target, target := none, held := none, resumePlan := none,
                resumptionWindow := false }
              ∧ (t.port p).presented = some r.target ∧ (t.port p).rePresent = none ∧ (t.port p).timers.settle = some 20
              ∧ t.grant p = min (s.grant p) r.target.offered ∧ t.group (portGroup p) = s.group (portGroup p)) ∧
            (r.hubRetarget = false → r.requester ≠ .hub → x.resumePlan = some .rest →
              (t.port p).tripCount = 0 ∧ (t.group (portGroup p)).pending &&& Kind.steady.mask ≠ 0
              ∧ (x.recomputeDue = true → 
                  ((t.port p).session.any fun y => y.verdicts == x.verdicts
                      && y.reAimed t { s.port p with presented := some r.target, rePresent := none } (min (s.grant p) r.target.offered)) = true
                  ∧ (t.aims x { s.port p with presented := some r.target, rePresent := none } (t.computedSteps false (s.port p).modeNow x) = false →
                      (t.port p).presented = some r.target ∧ (t.port p).rePresent = none
                        ∧ t.grant p = min (s.grant p) r.target.offered))
              ∧ (x.recomputeDue = false → (t.port p).presented = some r.target ∧ (t.port p).rePresent = none
              ∧ t.grant p = min (s.grant p) r.target.offered ∧ RaisedIn s t (portGroup p) .steady
                  ∧ (t.port p).session = some { x with
                    phase := some .steady, presented := some r.target, target := none, remaining := [], current := none,
                    resumePlan := none, resumptionWindow := false })))) ∧
    (∀ total, s.budget.pendingTotal = some total → s.victim p = true → r.target = .P → 500 < s.grant p →
      ∃ t, exec (.rePresentTimerExpiry p) s = .next t ∧ t.victim p = false ∧ (∀ q, q ≠ p → t.victim q = s.victim q)
        ∧ ((∀ q, q ≠ p → s.victim q = false) →
            t.budget.total = total ∧ t.budget.pendingTotal = none ∧ RaisedIn s t 8 .budgetApplied)
        ∧ ((∃ q, q ≠ p ∧ s.victim q = true) →
            t.grant p = 500 ∧ t.budget.total = s.budget.total ∧ t.budget.pendingTotal = some total
              ∧ t.group 8 = s.group 8 ∧ ∀ q, q ≠ p → t.grant q = s.grant q))

/-- The settle ends in IDENTIFYING when an identity is waited for, else begins the trials; so does the identity wait
(spec/02 section 2.6, spec/03 section 3.2, spec/03 section 3.3). -/
def Obligations.SettleAndIdentityWaitBeginTheTrials : Prop :=
  ∀ (s : State) (p : PortId),
    ∀ x, (s.port p).session = some x →
    ((s.port p).timers.settle.isSome = true → x.phase = some .settling →
      (x.trialsBegun = false → 0 < x.policy.identityWait → x.identity = none →
        ∃ t, exec (.settleExpiry p) s = .next t ∧ OnlyPort p s t
          ∧ t.port p = { s.port p with
              timers := { (s.port p).timers with settle := none, identityWait := some (200 * x.policy.identityWait) },
              session := some { x with phase := some .identifying } }) ∧
      (x.trialsBegun = true ∨ x.policy.identityWait = 0 ∨ x.identity.isSome = true →
        ∃ t, exec (.settleExpiry p) s = .next t ∧ OthersKept p s t ∧ t.host = s.host ∧ t.memory = s.memory
          ∧ (t.port p).timers.settle = none
          ∧ ((t.port p).session.any fun y => y.trialsBegun && y.mode == (if (s.port p).pins.hen then .data else .charge)
              && !y.recomputeDue && y.took (s.port p) (s.grant p) (s.computedSteps false (s.port p).modeNow x) && y.verdicts == x.verdicts) = true)) ∧
    ((s.port p).timers.identityWait.isSome = true → x.phase = some .identifying →
      ∃ t, exec (.identityWaitExpiry p) s = .next t ∧ OthersKept p s t ∧ t.host = s.host ∧ t.memory = s.memory
        ∧ (t.port p).timers.identityWait = none
        ∧ ((t.port p).session.any fun y => y.trialsBegun && y.mode == (if (s.port p).pins.hen then .data else .charge)
            && !y.recomputeDue && y.took (s.port p) (s.grant p) (s.computedSteps false (s.port p).modeNow x) && y.verdicts == x.verdicts) = true)

/-- The hold window's expiry ends the session, raises DETACH and brings the lines of the port back to P in IDLE (spec/02
section 2.7, spec/02 section 2.9). -/
def Obligations.HoldExpiryEndsTheSession : Prop :=
  ∀ (s : State) (p : PortId),
    LinesLaw s → (s.port p).timers.hold.isSome = true → (s.port p).state = .hold → ∀ x, (s.port p).session = some x →
    ∃ t, exec (.holdExpiry p) s = .next t ∧ OthersKept p s t ∧ t.host = s.host ∧ (t.port p).state = .idle
      ∧ (t.port p).session = none ∧ (t.port p).timers.hold = none ∧ (t.port p).counter = (s.port p).counter
      ∧ (t.port p).tripCount = (s.port p).tripCount ∧ RaisedIn s t (portGroup p) .detach
      ∧ (∀ n, x.boundSlot = some n → ∀ e, s.entry n = some e → t.entry n = some { e with users := e.users - 1 })
      ∧ t.memory.recency = s.memory.recency
      ∧ (∀ r, (s.port p).rePresent = some r →
          (t.port p).rePresent = some { r with target := .P, requester := .holdExpiry } ∧ t.grant p = s.grant p)
      ∧ ((s.port p).rePresent = none → ∀ c, (s.port p).presented = some c → c ≠ .P →
          (t.port p).presented = none ∧ (t.port p).rePresent = some ⟨.P, 50, false, .holdExpiry, some c⟩
            ∧ t.grant p = s.grant p)
      ∧ ((s.port p).rePresent = none → (s.port p).presented = some .P →
          (t.port p).presented = some .P ∧ (t.port p).rePresent = none ∧ t.grant p = min (s.grant p) 500)

/-- The power-good expiry takes a removable port to IDLE or a new session and opens or resumes a fixed port's session
(spec/02 section 2.3, spec/02 section 2.6, spec/02 section 2.8, spec/07 section 7.5). -/
def Obligations.PowerGoodExpiryEndsPowering : Prop :=
  ∀ (s : State) (p : PortId),
    LinesLaw s → SessionLaw s → CoverLaw s → (s.port p).state = .powering → (s.port p).timers.powerGood.isSome = true →
    s.victim p = false →
    ((s.port p).fixed = false →
      ∃ t, exec (.powerGoodExpiry p) s = .next t ∧ OthersKept p s t ∧ t.host = s.host ∧ t.budget = s.budget
        ∧ t.memory = s.memory ∧ (t.port p).presented = some .P ∧ (t.port p).timers.powerGood = none
        ∧ ((s.port p).pins.att = false → (t.port p).state = .idle ∧ (t.port p).session = none ∧ t.notices = s.notices)
        ∧ ((s.port p).pins.att = true → (t.port p).state = .occupied ∧ s.phase p = none ∧ t.phase p = some .settling
            ∧ (t.port p).counter = (s.port p).counter + 1 ∧ (t.port p).timers.settle = some 20
            ∧ RaisedIn s t (portGroup p) .attach)) ∧
    ((s.port p).fixed = true → (s.port p).session = none →
      ∃ t, exec (.powerGoodExpiry p) s = .next t ∧ OthersKept p s t ∧ t.host = s.host ∧ t.budget = s.budget
        ∧ t.memory = s.memory ∧ (t.port p).presented = some .P ∧ (t.port p).timers.powerGood = none
        ∧ (t.port p).state = .occupied ∧ t.phase p = some .settling ∧ (t.port p).timers.settle = some 20
        ∧ (t.port p).counter = (s.port p).counter + 1 ∧ RaisedIn s t (portGroup p) .attach
        ∧ (t.port p).timers.link =
            (if (s.port p).pins.lok then (s.port p).timers.link
             else if (s.port p).policy.linkTimeout = 0 then none
             else some (40 * 2 ^ ((s.port p).policy.linkTimeout - 1)))) ∧
    ((s.port p).fixed = true → ∀ x, (s.port p).session = some x → ∀ c, x.presented = some c →
      ∃ t, exec (.powerGoodExpiry p) s = .next t ∧ OnlyPort p s t ∧ (t.port p).state = .occupied
        ∧ (t.port p).presented = none ∧ (t.port p).timers.powerGood = none
        ∧ (t.port p).rePresent =
            some ⟨if c.chargeOnly && (s.port p).pins.hen then .P else c, 50, c.chargeOnly && (s.port p).pins.hen, .resumption,
              none⟩
        ∧ ((t.port p).session.any fun y => y.phase == some .representing && y.resumptionWindow && y.number == x.number
            && y.boundSlot == x.boundSlot && y.verdicts == x.verdicts && y.resumePlan == x.resumePlan) = true)

/-- The cool-down leads to POWERING or QUARANTINED by the trip count, the toggle-off to POWERING (spec/07 section 7.3,
spec/07 section 7.5). -/
def Obligations.CoolDownAndToggleOffLeadToPowering : Prop :=
  ∀ (s : State) (p : PortId),
    LinesLaw s → SessionLaw s → CoverLaw s → s.victim p = false →
    ((s.port p).timers.coolDown.isSome = true → (s.port p).state = .fault →
      ((s.port p).tripCount ≤ (s.port p).policy.faultRetries →
        ∃ t, exec (.coolDownExpiry p) s = .next t ∧ OthersKept p s t ∧ t.host = s.host ∧ t.budget = s.budget
          ∧ (t.port p).switchOn = true ∧ (t.port p).tripCount = (s.port p).tripCount ∧ (t.port p).timers.coolDown = none
          ∧ ((s.port p).policy.powerGood ≠ 0 → (t.port p).state = .powering ∧ t.notices = s.notices
              ∧ (t.port p).timers.powerGood = some (s.port p).policy.powerGood ∧ (t.port p).presented = none)
          ∧ ((s.port p).policy.powerGood = 0 → (t.port p).state = .idle ∨ (t.port p).state = .occupied)) ∧
      ((s.port p).policy.faultRetries < (s.port p).tripCount →
        ∃ t, exec (.coolDownExpiry p) s = .next t ∧ OthersKept p s t ∧ t.host = s.host ∧ t.budget = s.budget
          ∧ t.port p = { s.port p with
              state := .quarantined, quarantine := some .overcurrent, timers := { (s.port p).timers with coolDown := none } }
          ∧ RaisedIn s t (portGroup p) .quarantine)) ∧
    ((s.port p).timers.toggleOff.isSome = true → (s.port p).state = .recovery →
      ∃ t, exec (.toggleOffExpiry p) s = .next t ∧ OthersKept p s t ∧ t.host = s.host ∧ t.budget = s.budget
        ∧ (t.port p).switchOn = true ∧ (t.port p).tripCount = (s.port p).tripCount ∧ (t.port p).timers.toggleOff = none
        ∧ ((s.port p).policy.powerGood ≠ 0 → (t.port p).state = .powering ∧ t.notices = s.notices
            ∧ (t.port p).session = (s.port p).session ∧ (t.port p).presented = none
            ∧ (t.port p).timers.powerGood = some (s.port p).policy.powerGood)
        ∧ ((s.port p).policy.powerGood = 0 → (t.port p).state = .idle ∨ (t.port p).state = .occupied))

/-- The window expiry computes the mean, gives the verdict of the first row that fits, records it and follows it
(spec/03 section 3.4, spec/03 section 3.5, spec/03 section 3.3, spec/03 section 3.7). -/
def Obligations.WindowExpiryGivesTheVerdict : Prop :=
  ∀ (s : State) (p : PortId),
    (s.port p).timers.evaluation.isSome = true → ∀ x, (s.port p).session = some x → x.phase = some .evaluating →
    ∀ st, x.current = some st →
    let mean := if x.count = 0 then 0 else x.sum / x.count / 10 * 10
    let verdict : Verdict :=
      if st.sig = .A ∧ x.probeSeen = false then .rejected
      else if mean < 100 then .rejected
      else if st.sig.takeUp.any (fun level => decide (level < mean)) then .accepted
      else .inconclusive
    let entry : VerdictEntry := ⟨st.sig, verdict, verdict ≠ .inconclusive && x.boundSlot.isSome⟩
    ∃ t, exec (.evaluationWindowExpiry p) s = .next t ∧ OthersKept p s t ∧ t.host = s.host
      ∧ ((t.port p).session.any fun y => y.lastMean == some mean && y.number == x.number
          && y.verdicts == x.verdicts.filter (fun w => w.sig ≠ st.sig) ++ [entry]) = true
      ∧ (t.group (portGroup p)).pending &&& Kind.verdict.mask ≠ 0
      ∧ (∀ n, x.boundSlot = some n → ∀ e, s.entry n = some e → e.pinned = none → verdict ≠ .inconclusive →
          (t.entry n).any (fun f => f.tallies == e.tallies.modify (Tally.fold (verdict = .accepted)) st.sig) = true)
      ∧ (x.boundSlot = none ∨ verdict = .inconclusive → t.memory = s.memory)
      ∧ (verdict ≠ .rejected → x.recomputeDue = false →
          (t.port p).presented = (s.port p).presented ∧ t.grant p = s.grant p ∧ (t.port p).tripCount = 0
            ∧ ((t.port p).session.any fun y => y.phase == some .steady && y.current == none && y.remaining == []) = true
            ∧ (t.group (portGroup p)).pending &&& Kind.steady.mask ≠ 0
            ∧ (t.group (portGroup p)).epoch = (s.group (portGroup p)).epoch + 2)
      ∧ (∀ n, x.boundSlot = some n → ∀ e, s.entry n = some e → e.pinned.isSome = true → t.memory = s.memory)
      ∧ (verdict ≠ .rejected → x.recomputeDue = true → x.shed = false →
          (t.port p).tripCount = 0 ∧ (t.group (portGroup p)).pending &&& Kind.steady.mask ≠ 0
            ∧ ((t.port p).session.any fun y => y.mode == (s.port p).modeNow && !y.recomputeDue) = true
            ∧ ((s.port p).presented = x.presented →
                ((t.port p).session.any fun y => y.reAimed t (s.port p) (s.grant p)) = true)
            ∧ (x.boundSlot = none → (t.port p).presented = (s.port p).presented ∧ t.grant p = s.grant p
                ∧ ((t.port p).session.any fun y => y.phase == some .steady && y.steps == []) = true))
      ∧ (verdict = .rejected → x.recomputeDue = true →
          ((t.port p).session.any fun y => y.mode == (s.port p).modeNow && !y.recomputeDue
            && y.took (s.port p) (s.grant p) (t.computedSteps false (s.port p).modeNow y)) = true)
      ∧ (verdict = .rejected → x.recomputeDue = false → (s.port p).headBlocked = false →
          ((t.port p).session.any fun y => y.mode == x.mode
            && y.took (s.port p) (s.grant p) x.remaining) = true
          ∧ ((s.port p).rePresent = none → (s.port p).switchOn = true →
              (x.remaining = [] → (s.port p).presented ≠ some .P →
                (t.port p).rePresent = some ⟨.P, 50, false, .sequencer, (s.port p).presented⟩
                  ∧ ((t.port p).session.any fun y => y.phase == some .representing && y.target == some .P) = true) ∧
              (∀ nx, x.remaining.head? = some nx → (s.port p).presented ≠ some nx.sig →
                ((t.port p).session.any fun y => y.current == some nx
                  && (y.phase == some .representing || y.phase == some .waitingBudget)) = true
                ∧ (nx.sig.offered ≤ s.grant p →
                    (t.port p).rePresent = some ⟨nx.sig, 50, false, .sequencer, (s.port p).presented⟩
                      ∧ t.grant p = s.grant p))))
      ∧ (verdict = .rejected → x.recomputeDue = false → (s.port p).headBlocked = true →
          ((t.port p).session.any fun y => y.mode == .data && !y.recomputeDue
            && y.took (s.port p) (s.grant p) (t.computedSteps false .data y)) = true)

/-- A budget wait's expiry withdraws the entry, serves the queue unless a change is pending, and skips the signature
(spec/06 section 6.3, spec/03 section 3.3). -/
def Obligations.WaitExpirySkipsTheSignature : Prop :=
  ∀ (s : State) (p : PortId),
    QueueLaw s → SessionLaw s → ExactLaw s → s.queued p = true → ∀ x, (s.port p).session = some x →
    ∃ t, exec (.budgetWaitExpiry p) s = .next t ∧ OthersKept p s t ∧ t.host = s.host ∧ t.memory = s.memory
      ∧ ((t.port p).session.any fun y => y.verdicts == x.verdicts && y.number == x.number) = true
      ∧ t.budget.queue =
          (t.budget.queue.filter fun e => e.port ≠ p) ++ (t.budget.queue.filter fun e => e.port = p)
      ∧ (t.budget.queue.filter fun e => e.port ≠ p) <:+ (s.budget.queue.filter fun e => e.port ≠ p)
      ∧ (s.budget.pendingTotal = none →
          (∀ e, e ∈ s.budget.queue → e.port ≠ p → t.queued e.port = false →
              t.grant e.port = e.sig.offered ∧ t.phase e.port = some .representing
                ∧ RaisedIn s t (portGroup e.port) .grant)
          ∧ (∀ q, q ≠ p → t.queued q = s.queued q → t.grant q = s.grant q)
          ∧ ∀ e, (t.budget.queue.filter fun e => e.port ≠ p).head? = some e → t.headroom < t.need e.port e.sig)
      ∧ (s.budget.pendingTotal.isSome = true → s.noVictims = false →
          (t.budget.queue.filter fun e => e.port ≠ p) = (s.budget.queue.filter fun e => e.port ≠ p)
            ∧ t.budget.grants = s.budget.grants)
      ∧ (x.recomputeDue = false → (s.port p).headBlocked = false →
          ((t.port p).session.any fun y => y.took (s.port p) (s.grant p) x.remaining) = true)
      ∧ (x.recomputeDue = true →
          ((t.port p).session.any fun y => y.mode == (s.port p).modeNow && !y.recomputeDue
            && y.took (s.port p) (s.grant p) (s.computedSteps false (s.port p).modeNow x)) = true)
      ∧ (x.recomputeDue = false → (s.port p).headBlocked = true →
          ((t.port p).session.any fun y => y.mode == .data && !y.recomputeDue
            && y.took (s.port p) (s.grant p) (s.computedSteps false .data x)) = true)

/-- The link timer's expiry suspends a fixed port's session in RECOVERY, or quarantines the port at the recovery limit
(spec/07 section 7.4, spec/07 section 7.5, spec/02 section 2.8). -/
def Obligations.LinkExpiryRecoversOrQuarantines : Prop :=
  ∀ (s : State) (p : PortId),
    LinesLaw s → (s.port p).timers.link.isSome = true → (s.port p).fixed = true → (s.port p).state = .occupied →
    ∀ x, (s.port p).session = some x →
    ((s.port p).recoveryCount < (s.port p).policy.recoveryLimit →
      ∃ t, exec (.linkTimerExpiry p) s = .next t ∧ OthersKept p s t ∧ t.host = s.host ∧ t.memory = s.memory
        ∧ (t.port p).state = .recovery ∧ (t.port p).switchOn = false ∧ (t.port p).presented = none
        ∧ (t.port p).rePresent = none ∧ (t.port p).recoveryCount = (s.port p).recoveryCount + 1
        ∧ (t.port p).timers.toggleOff = some (40 + 4 * (s.port p).policy.toggleOff) ∧ (t.port p).timers.link = none
        ∧ t.queued p = false ∧ t.victim p = false ∧ RaisedIn s t (portGroup p) .recovery
        ∧ t.grant p = (if s.victim p then 500 else s.grant p)
        ∧ ((t.port p).session.any fun y => y.phase == none && y.held == none && y.current == none && y.remaining == []
            && y.number == x.number && y.boundSlot == x.boundSlot && y.verdicts == x.verdicts && y.lastMean == x.lastMean
            && y.presented == (if s.victim p then some .P
                else match (s.port p).rePresent with
                  | some r => r.starting
                  | none => (s.port p).presented)
            && y.shed == (s.victim p || x.shed)
            && y.resumePlan == some (if x.phase = some .settling ∨ x.phase = some .identifying then .settle
                else if x.phase = some .steady then .rest else .continueTrials)) = true) ∧
    ((s.port p).policy.recoveryLimit ≤ (s.port p).recoveryCount →
      ∃ t, exec (.linkTimerExpiry p) s = .next t ∧ OthersKept p s t ∧ t.host = s.host
        ∧ t.port p = { s.port p with
            state := .quarantined, quarantine := some .link, switchOn := false, presented := none, rePresent := none,
            detector := .off, overcurrent := false, session := none, timers := Timers.stopped }
        ∧ t.grant p = 500 ∧ t.queued p = false ∧ t.victim p = false ∧ RaisedIn s t (portGroup p) .quarantine)

/-- A step within the grant re-presents, one that fits the headroom raises the grant first, another queues; service
grants the head or is blocked by it (spec/03 section 3.3, spec/06 section 6.2, spec/06 section 6.3, spec/06 section
6.4). -/
def Obligations.TakingAStepAsksForBudget : Prop :=
  ∀ (s : State) (p : PortId),
    ((s.port p).headBlocked = false → (s.port p).switchOn = true → (s.port p).rePresent = none →
    ∀ x, (s.port p).session = some x → x.suspended = false → ∀ st, x.remaining.head? = some st →
    (s.port p).presented ≠ some st.sig →
    ((st.sig.offered ≤ s.grant p ∨ s.upgradeFits p st.sig = true) →
      (s.takeStep p).grant p = max (s.grant p) st.sig.offered
        ∧ ((s.takeStep p).port p).presented = none
        ∧ ((s.takeStep p).port p).rePresent = some ⟨st.sig, 50, false, .sequencer, (s.port p).presented⟩
        ∧ ((s.takeStep p).port p).session = some { x with
            phase := some .representing, presented := none, target := some st.sig, current := some st,
            remaining := x.remaining.tail }
        ∧ (s.takeStep p).budget.queue = s.budget.queue ∧ (s.takeStep p).notices = s.notices) ∧
    (s.grant p < st.sig.offered → s.upgradeFits p st.sig = false →
      (s.takeStep p).budget.queue = s.budget.queue ++ [⟨p, st.sig, 200 * s.budget.waitLimit⟩]
        ∧ (s.takeStep p).budget.grants = s.budget.grants
        ∧ ((s.takeStep p).port p).presented = (s.port p).presented
        ∧ ((s.takeStep p).port p).session = some { x with
            phase := some .waitingBudget, target := some st.sig, current := some st, remaining := x.remaining.tail }
        ∧ RaisedIn s (s.takeStep p) (portGroup p) .wait) ∧
    (s.upgradeFits p st.sig = true ↔
      s.budget.queue = [] ∧ s.budget.pendingTotal = none ∧ st.sig.offered - s.grant p ≤ s.budget.total - s.sumGrants) ∧
    (∀ q, q ≠ p → (s.takeStep p).port q = s.port q ∧ (s.takeStep p).grant q = s.grant q)) ∧
    (s.budget.queue = [] → s.serveQueue = s) ∧
    (∀ e, s.budget.queue.head? = some e → s.budget.total - s.sumGrants < e.sig.offered - s.grant e.port → s.serveQueue = s) ∧
    (∀ e, s.budget.queue.head? = some e → e.sig.offered - s.grant e.port ≤ s.budget.total - s.sumGrants →
      s.serveQueue = (s.grantHead e s.budget.queue.tail).serveQueue
        ∧ (s.grantHead e s.budget.queue.tail).budget.queue = s.budget.queue.tail
        ∧ (s.grantHead e s.budget.queue.tail).grant e.port = e.sig.offered
        ∧ RaisedIn s (s.grantHead e s.budget.queue.tail) (portGroup e.port) .grant
        ∧ ((s.port e.port).switchOn = true → (s.port e.port).session.isSome = true →
            ((s.port e.port).pins.hen = false ∨ e.sig.chargeOnly = false) →
            (((s.grantHead e s.budget.queue.tail).port e.port).rePresent.any fun r => r.target == e.sig
              && r.requester == .sequencer) = true
            ∧ (((s.grantHead e s.budget.queue.tail).port e.port).session.any fun y =>
                y.phase == some .representing && y.target == some e.sig) = true)
        ∧ (∀ q, q ≠ e.port → (s.grantHead e s.budget.queue.tail).port q = s.port q
            ∧ (s.grantHead e s.budget.queue.tail).grant q = s.grant q)) ∧
    (s.budget.pendingTotal = none → s.afterRelease = s.serveQueue) ∧
    (s.budget.pendingTotal.isSome = true → (∃ q, s.victim q = true) → s.afterRelease = s) ∧
    (∀ total, s.budget.pendingTotal = some total → (∀ q, s.victim q = false) →
      s.afterRelease.budget.total = total ∧ s.afterRelease.budget.pendingTotal = none
        ∧ RaisedIn s s.afterRelease 8 .budgetApplied) ∧
    ((s.port p).headBlocked = true → ∀ x, (s.port p).session = some x →
      (((s.takeStep p).port p).session.any fun y => y.mode == .data && !y.recomputeDue
        && y.took (s.port p) (s.grant p) (s.computedSteps false .data x)) = true)

/-- An event at one port changes no other port, but those the budget queue holds, and neither settings nor the host port
(spec/00 section 0.9, spec/06 section 6.3). -/
def Obligations.PortEventsLeaveTheRestAlone : Prop :=
  ∀ (s : State) (p : PortId) (r : Nat),
    ∀ c, c ∈ ([.attnRising p, .attnFalling p, .hennRising p, .hennFalling p, .loknRising p, .loknFalling p,
        .probeBandEntered p, .probeBandLeft p, .probeTimerExpiry p, .currentReading p r, .rePresentTimerExpiry p,
        .settleExpiry p, .identityWaitExpiry p, .holdExpiry p, .powerGoodExpiry p, .evaluationWindowExpiry p,
        .budgetWaitExpiry p, .coolDownExpiry p, .toggleOffExpiry p, .linkTimerExpiry p] : List Instr) →
    ∃ t, exec c s = .next t ∧ OthersKept p s t ∧ t.host = s.host ∧ (t.port p).policy = (s.port p).policy

/-- Every step keeps the line laws: off means neutral, the hub and a charge-only signature never share the lines
(spec/01 section 1.2, spec/01 section 1.3, spec/01 section 1.4, spec/02 section 2.1). -/
def Obligations.LinesLawIsKept : Prop :=
  ∀ (s : State),
    LinesLaw s → ProbeLaw s → ∀ t, step s = .next t → LinesLaw t ∧ ProbeLaw t

/-- Every step keeps ALERT# low exactly while an unmasked kind is pending, and kinds in groups of their class (spec/09
section 9.1, spec/09 section 9.3). -/
def Obligations.NoticeLawIsKept : Prop :=
  ∀ (s : State),
    NoticeLaw s → ∀ t, step s = .next t → NoticeLaw t

/-- Every step keeps the recency list a list of exactly the non-vacant slots, the keys distinct and the counts within 15
(spec/04 section 4.1, spec/04 section 4.4). -/
def Obligations.MemoryLawIsKept : Prop :=
  ∀ (s : State),
    MemoryLaw s → ∀ t, step s = .next t → MemoryLaw t

/-- Every step keeps the sessions as the port states require and the queue to the ports in WAITING_BUDGET (spec/02
section 2.1, spec/02 section 2.4, spec/06 section 6.3). -/
def Obligations.SessionAndQueueLawsAreKept : Prop :=
  ∀ (s : State),
    SessionLaw s → QueueLaw s → ∀ t, step s = .next t → SessionLaw t ∧ QueueLaw t

/-- Every step keeps the sum of the grants within the total and every enabled port at 500 mA or more; release events
serve the queue or complete the change (spec/06 section 6.1, spec/06 section 6.2, spec/06 section 6.3, spec/06 section
6.4). -/
def Obligations.GrantLawIsKept : Prop :=
  ∀ (s : State),
    SessionLaw s → QueueLaw s → GrantLaw s → ∀ t, step s = .next t → GrantLaw t ∧ (ServiceLaw s → ServiceLaw t)

/-- Every step keeps each port's grant at or above what it presents, heads for or keeps, exactly at it at rest, and
below what it waits for (spec/01 section 1.5, spec/06 section 6.1, spec/06 section 6.2, spec/06 section 6.3, spec/02
section 2.1). -/
def Obligations.CoverLawIsKept : Prop :=
  ∀ (s : State),
    SessionLaw s → QueueLaw s → GrantLaw s → LinesLaw s → CoverLaw s → NeedLaw s → ExactLaw s →
    ∀ t, step s = .next t → CoverLaw t ∧ NeedLaw t ∧ ExactLaw t

/-- Every step keeps each entry's user count equal to the number of sessions bound to it (spec/04 section 4.1, spec/05
section 5.1). -/
def Obligations.UsersLawIsKept : Prop :=
  ∀ (s : State),
    SessionLaw s → QueueLaw s → UsersLaw s → ∀ t, step s = .next t → UsersLaw t

/-- Every step keeps every policy record and both settings in their ranges and enabled exactly outside DISABLED (spec/08
section 8.1, spec/08 section 8.5). -/
def Obligations.PolicyLawIsKept : Prop :=
  ∀ (s : State),
    PolicyLaw s → ∀ t, step s = .next t → PolicyLaw t
end

