-- ==== Sys2Proof/Laws/State.lean ====
section
/-! SUPPORT. What each update of the state leaves in each field: one lemma per update and field, true by computation, so that
no later proof unfolds a record update. -/

namespace Sys2Proof.Machine

variable (s : State)

/-! ### setPort -/

@[simp] theorem State.budget_setPort (p : PortId) (q : Port) : (s.setPort p q).budget = s.budget := rfl
@[simp] theorem State.memory_setPort (p : PortId) (q : Port) : (s.setPort p q).memory = s.memory := rfl
@[simp] theorem State.notices_setPort (p : PortId) (q : Port) : (s.setPort p q).notices = s.notices := rfl
@[simp] theorem State.host_setPort (p : PortId) (q : Port) : (s.setPort p q).host = s.host := rfl
@[simp] theorem State.freeCount_setPort (p : PortId) (q : Port) : (s.setPort p q).freeCount = s.freeCount := rfl
@[simp] theorem State.pending_setPort (p : PortId) (q : Port) : (s.setPort p q).pending = s.pending := rfl

/-! ### modPort -/

@[simp] theorem State.budget_modPort (p : PortId) (f : Port → Port) : (s.modPort p f).budget = s.budget := rfl
@[simp] theorem State.memory_modPort (p : PortId) (f : Port → Port) : (s.modPort p f).memory = s.memory := rfl
@[simp] theorem State.notices_modPort (p : PortId) (f : Port → Port) : (s.modPort p f).notices = s.notices := rfl
@[simp] theorem State.host_modPort (p : PortId) (f : Port → Port) : (s.modPort p f).host = s.host := rfl
@[simp] theorem State.freeCount_modPort (p : PortId) (f : Port → Port) : (s.modPort p f).freeCount = s.freeCount := rfl
@[simp] theorem State.pending_modPort (p : PortId) (f : Port → Port) : (s.modPort p f).pending = s.pending := rfl

/-! ### modSession -/

@[simp] theorem State.budget_modSession (p : PortId) (f : Session → Session) : (s.modSession p f).budget = s.budget := rfl
@[simp] theorem State.memory_modSession (p : PortId) (f : Session → Session) : (s.modSession p f).memory = s.memory := rfl
@[simp] theorem State.notices_modSession (p : PortId) (f : Session → Session) : (s.modSession p f).notices = s.notices := rfl
@[simp] theorem State.host_modSession (p : PortId) (f : Session → Session) : (s.modSession p f).host = s.host := rfl
@[simp] theorem State.freeCount_modSession (p : PortId) (f : Session → Session) : (s.modSession p f).freeCount = s.freeCount := rfl
@[simp] theorem State.pending_modSession (p : PortId) (f : Session → Session) : (s.modSession p f).pending = s.pending := rfl

/-! ### modTimers -/

@[simp] theorem State.budget_modTimers (p : PortId) (f : Timers → Timers) : (s.modTimers p f).budget = s.budget := rfl
@[simp] theorem State.memory_modTimers (p : PortId) (f : Timers → Timers) : (s.modTimers p f).memory = s.memory := rfl
@[simp] theorem State.notices_modTimers (p : PortId) (f : Timers → Timers) : (s.modTimers p f).notices = s.notices := rfl
@[simp] theorem State.host_modTimers (p : PortId) (f : Timers → Timers) : (s.modTimers p f).host = s.host := rfl
@[simp] theorem State.freeCount_modTimers (p : PortId) (f : Timers → Timers) : (s.modTimers p f).freeCount = s.freeCount := rfl
@[simp] theorem State.pending_modTimers (p : PortId) (f : Timers → Timers) : (s.modTimers p f).pending = s.pending := rfl

/-! ### modPins -/

@[simp] theorem State.budget_modPins (p : PortId) (f : Pins → Pins) : (s.modPins p f).budget = s.budget := rfl
@[simp] theorem State.memory_modPins (p : PortId) (f : Pins → Pins) : (s.modPins p f).memory = s.memory := rfl
@[simp] theorem State.notices_modPins (p : PortId) (f : Pins → Pins) : (s.modPins p f).notices = s.notices := rfl
@[simp] theorem State.host_modPins (p : PortId) (f : Pins → Pins) : (s.modPins p f).host = s.host := rfl
@[simp] theorem State.freeCount_modPins (p : PortId) (f : Pins → Pins) : (s.modPins p f).freeCount = s.freeCount := rfl
@[simp] theorem State.pending_modPins (p : PortId) (f : Pins → Pins) : (s.modPins p f).pending = s.pending := rfl

/-! ### setPortState -/

@[simp] theorem State.budget_setPortState (p : PortId) (st : PortState) : (s.setPortState p st).budget = s.budget := rfl
@[simp] theorem State.memory_setPortState (p : PortId) (st : PortState) : (s.setPortState p st).memory = s.memory := rfl
@[simp] theorem State.notices_setPortState (p : PortId) (st : PortState) : (s.setPortState p st).notices = s.notices := rfl
@[simp] theorem State.host_setPortState (p : PortId) (st : PortState) : (s.setPortState p st).host = s.host := rfl
@[simp] theorem State.freeCount_setPortState (p : PortId) (st : PortState) : (s.setPortState p st).freeCount = s.freeCount := rfl
@[simp] theorem State.pending_setPortState (p : PortId) (st : PortState) : (s.setPortState p st).pending = s.pending := rfl

/-! ### setGrant -/

@[simp] theorem State.ports_setGrant (p : PortId) (mA : Nat) : (s.setGrant p mA).ports = s.ports := rfl
@[simp] theorem State.memory_setGrant (p : PortId) (mA : Nat) : (s.setGrant p mA).memory = s.memory := rfl
@[simp] theorem State.notices_setGrant (p : PortId) (mA : Nat) : (s.setGrant p mA).notices = s.notices := rfl
@[simp] theorem State.host_setGrant (p : PortId) (mA : Nat) : (s.setGrant p mA).host = s.host := rfl
@[simp] theorem State.freeCount_setGrant (p : PortId) (mA : Nat) : (s.setGrant p mA).freeCount = s.freeCount := rfl
@[simp] theorem State.pending_setGrant (p : PortId) (mA : Nat) : (s.setGrant p mA).pending = s.pending := rfl

/-! ### leaveVictims -/

@[simp] theorem State.ports_leaveVictims (p : PortId) : (s.leaveVictims p).ports = s.ports := rfl
@[simp] theorem State.memory_leaveVictims (p : PortId) : (s.leaveVictims p).memory = s.memory := rfl
@[simp] theorem State.notices_leaveVictims (p : PortId) : (s.leaveVictims p).notices = s.notices := rfl
@[simp] theorem State.host_leaveVictims (p : PortId) : (s.leaveVictims p).host = s.host := rfl
@[simp] theorem State.freeCount_leaveVictims (p : PortId) : (s.leaveVictims p).freeCount = s.freeCount := rfl
@[simp] theorem State.pending_leaveVictims (p : PortId) : (s.leaveVictims p).pending = s.pending := rfl

/-! ### setQueue -/

@[simp] theorem State.ports_setQueue (l : List QueueEntry) : (s.setQueue l).ports = s.ports := rfl
@[simp] theorem State.memory_setQueue (l : List QueueEntry) : (s.setQueue l).memory = s.memory := rfl
@[simp] theorem State.notices_setQueue (l : List QueueEntry) : (s.setQueue l).notices = s.notices := rfl
@[simp] theorem State.host_setQueue (l : List QueueEntry) : (s.setQueue l).host = s.host := rfl
@[simp] theorem State.freeCount_setQueue (l : List QueueEntry) : (s.setQueue l).freeCount = s.freeCount := rfl
@[simp] theorem State.pending_setQueue (l : List QueueEntry) : (s.setQueue l).pending = s.pending := rfl

/-! ### withdraw -/

@[simp] theorem State.ports_withdraw (p : PortId) : (s.withdraw p).ports = s.ports := rfl
@[simp] theorem State.memory_withdraw (p : PortId) : (s.withdraw p).memory = s.memory := rfl
@[simp] theorem State.notices_withdraw (p : PortId) : (s.withdraw p).notices = s.notices := rfl
@[simp] theorem State.host_withdraw (p : PortId) : (s.withdraw p).host = s.host := rfl
@[simp] theorem State.freeCount_withdraw (p : PortId) : (s.withdraw p).freeCount = s.freeCount := rfl
@[simp] theorem State.pending_withdraw (p : PortId) : (s.withdraw p).pending = s.pending := rfl

/-! ### raise -/

@[simp] theorem State.ports_raise (g : GroupId) (k : Kind) : (s.raise g k).ports = s.ports := rfl
@[simp] theorem State.budget_raise (g : GroupId) (k : Kind) : (s.raise g k).budget = s.budget := rfl
@[simp] theorem State.memory_raise (g : GroupId) (k : Kind) : (s.raise g k).memory = s.memory := rfl
@[simp] theorem State.host_raise (g : GroupId) (k : Kind) : (s.raise g k).host = s.host := rfl
@[simp] theorem State.freeCount_raise (g : GroupId) (k : Kind) : (s.raise g k).freeCount = s.freeCount := rfl
@[simp] theorem State.pending_raise (g : GroupId) (k : Kind) : (s.raise g k).pending = s.pending := rfl

/-! ### raisePort -/

@[simp] theorem State.ports_raisePort (p : PortId) (k : Kind) : (s.raisePort p k).ports = s.ports := rfl
@[simp] theorem State.budget_raisePort (p : PortId) (k : Kind) : (s.raisePort p k).budget = s.budget := rfl
@[simp] theorem State.memory_raisePort (p : PortId) (k : Kind) : (s.raisePort p k).memory = s.memory := rfl
@[simp] theorem State.host_raisePort (p : PortId) (k : Kind) : (s.raisePort p k).host = s.host := rfl
@[simp] theorem State.freeCount_raisePort (p : PortId) (k : Kind) : (s.raisePort p k).freeCount = s.freeCount := rfl
@[simp] theorem State.pending_raisePort (p : PortId) (k : Kind) : (s.raisePort p k).pending = s.pending := rfl

/-! ### raiseDevice -/

@[simp] theorem State.ports_raiseDevice (k : Kind) : (s.raiseDevice k).ports = s.ports := rfl
@[simp] theorem State.budget_raiseDevice (k : Kind) : (s.raiseDevice k).budget = s.budget := rfl
@[simp] theorem State.memory_raiseDevice (k : Kind) : (s.raiseDevice k).memory = s.memory := rfl
@[simp] theorem State.host_raiseDevice (k : Kind) : (s.raiseDevice k).host = s.host := rfl
@[simp] theorem State.freeCount_raiseDevice (k : Kind) : (s.raiseDevice k).freeCount = s.freeCount := rfl
@[simp] theorem State.pending_raiseDevice (k : Kind) : (s.raiseDevice k).pending = s.pending := rfl

/-! ### modMemory -/

@[simp] theorem State.ports_modMemory (f : ProfileMemory → ProfileMemory) : (s.modMemory f).ports = s.ports := rfl
@[simp] theorem State.budget_modMemory (f : ProfileMemory → ProfileMemory) : (s.modMemory f).budget = s.budget := rfl
@[simp] theorem State.notices_modMemory (f : ProfileMemory → ProfileMemory) : (s.modMemory f).notices = s.notices := rfl
@[simp] theorem State.host_modMemory (f : ProfileMemory → ProfileMemory) : (s.modMemory f).host = s.host := rfl
@[simp] theorem State.freeCount_modMemory (f : ProfileMemory → ProfileMemory) : (s.modMemory f).freeCount = s.freeCount := rfl
@[simp] theorem State.pending_modMemory (f : ProfileMemory → ProfileMemory) : (s.modMemory f).pending = s.pending := rfl

/-! ### spendChoice -/

@[simp] theorem State.ports_spendChoice : (s.spendChoice).ports = s.ports := rfl
@[simp] theorem State.budget_spendChoice : (s.spendChoice).budget = s.budget := rfl
@[simp] theorem State.memory_spendChoice : (s.spendChoice).memory = s.memory := rfl
@[simp] theorem State.notices_spendChoice : (s.spendChoice).notices = s.notices := rfl
@[simp] theorem State.host_spendChoice : (s.spendChoice).host = s.host := rfl
@[simp] theorem State.pending_spendChoice : (s.spendChoice).pending = s.pending := rfl

/-! ### respond -/

@[simp] theorem State.ports_respond (st : Status) (tag code : Byte) (data : List Byte) : (s.respond st tag code data).ports = s.ports := rfl
@[simp] theorem State.budget_respond (st : Status) (tag code : Byte) (data : List Byte) : (s.respond st tag code data).budget = s.budget := rfl
@[simp] theorem State.memory_respond (st : Status) (tag code : Byte) (data : List Byte) : (s.respond st tag code data).memory = s.memory := rfl
@[simp] theorem State.notices_respond (st : Status) (tag code : Byte) (data : List Byte) : (s.respond st tag code data).notices = s.notices := rfl
@[simp] theorem State.freeCount_respond (st : Status) (tag code : Byte) (data : List Byte) : (s.respond st tag code data).freeCount = s.freeCount := rfl
@[simp] theorem State.pending_respond (st : Status) (tag code : Byte) (data : List Byte) : (s.respond st tag code data).pending = s.pending := rfl

/-! ### Reading one port, grant, victim mark, group and slot -/

theorem State.port_setPort (p r : PortId) (q : Port) : (s.setPort p q).port r = if r = p then q else s.port r := by
  simp only [State.port, State.setPort, Vector.getElem_set, Fin.ext_iff, eq_comm]

@[simp] theorem State.port_setPort_same (p : PortId) (q : Port) : (s.setPort p q).port p = q := by
  simp [State.port_setPort]

theorem State.port_setPort_ne (p r : PortId) (q : Port) (h : r ≠ p) : (s.setPort p q).port r = s.port r := by
  simp [State.port_setPort, h]

@[simp] theorem State.port_modPort_same (p : PortId) (f : Port → Port) :
    (s.modPort p f).port p = f (s.port p) := State.port_setPort_same _ _ _

theorem State.port_modPort_ne (p r : PortId) (f : Port → Port) (h : r ≠ p) : (s.modPort p f).port r = s.port r :=
  State.port_setPort_ne _ _ _ _ h

@[simp] theorem State.port_modSession_same (p : PortId) (f : Session → Session) :
    (s.modSession p f).port p = { s.port p with session := (s.port p).session.map f } := State.port_setPort_same _ _ _

theorem State.port_modSession_ne (p r : PortId) (f : Session → Session) (h : r ≠ p) : (s.modSession p f).port r = s.port r :=
  State.port_setPort_ne _ _ _ _ h

@[simp] theorem State.port_modTimers_same (p : PortId) (f : Timers → Timers) :
    (s.modTimers p f).port p = { s.port p with timers := f (s.port p).timers } := State.port_setPort_same _ _ _

theorem State.port_modTimers_ne (p r : PortId) (f : Timers → Timers) (h : r ≠ p) : (s.modTimers p f).port r = s.port r :=
  State.port_setPort_ne _ _ _ _ h

@[simp] theorem State.port_modPins_same (p : PortId) (f : Pins → Pins) :
    (s.modPins p f).port p = { s.port p with pins := f (s.port p).pins } := State.port_setPort_same _ _ _

theorem State.port_modPins_ne (p r : PortId) (f : Pins → Pins) (h : r ≠ p) : (s.modPins p f).port r = s.port r :=
  State.port_setPort_ne _ _ _ _ h

@[simp] theorem State.port_setPortState_same (p : PortId) (st : PortState) :
    (s.setPortState p st).port p = { s.port p with state := st } := State.port_setPort_same _ _ _

theorem State.port_setPortState_ne (p r : PortId) (st : PortState) (h : r ≠ p) : (s.setPortState p st).port r = s.port r :=
  State.port_setPort_ne _ _ _ _ h

@[simp] theorem State.grant_setPort (p : PortId) (q : Port) (r : PortId) : (s.setPort p q).grant r = s.grant r := rfl
@[simp] theorem State.victim_setPort (p : PortId) (q : Port) (r : PortId) : (s.setPort p q).victim r = s.victim r := rfl
@[simp] theorem State.queued_setPort (p : PortId) (q : Port) (r : PortId) : (s.setPort p q).queued r = s.queued r := rfl
@[simp] theorem State.sumGrants_setPort (p : PortId) (q : Port) : (s.setPort p q).sumGrants = s.sumGrants := rfl
@[simp] theorem State.headroom_setPort (p : PortId) (q : Port) : (s.setPort p q).headroom = s.headroom := rfl
@[simp] theorem State.entry_setPort (p : PortId) (q : Port) (k : SlotId) : (s.setPort p q).entry k = s.entry k := rfl
@[simp] theorem State.group_setPort (p : PortId) (q : Port) (k : GroupId) : (s.setPort p q).group k = s.group k := rfl

@[simp] theorem State.grant_modPort (p : PortId) (f : Port → Port) (r : PortId) : (s.modPort p f).grant r = s.grant r := rfl
@[simp] theorem State.victim_modPort (p : PortId) (f : Port → Port) (r : PortId) : (s.modPort p f).victim r = s.victim r := rfl
@[simp] theorem State.queued_modPort (p : PortId) (f : Port → Port) (r : PortId) : (s.modPort p f).queued r = s.queued r := rfl
@[simp] theorem State.sumGrants_modPort (p : PortId) (f : Port → Port) : (s.modPort p f).sumGrants = s.sumGrants := rfl
@[simp] theorem State.headroom_modPort (p : PortId) (f : Port → Port) : (s.modPort p f).headroom = s.headroom := rfl
@[simp] theorem State.entry_modPort (p : PortId) (f : Port → Port) (k : SlotId) : (s.modPort p f).entry k = s.entry k := rfl
@[simp] theorem State.group_modPort (p : PortId) (f : Port → Port) (k : GroupId) : (s.modPort p f).group k = s.group k := rfl

@[simp] theorem State.grant_modSession (p : PortId) (f : Session → Session) (r : PortId) : (s.modSession p f).grant r = s.grant r := rfl
@[simp] theorem State.victim_modSession (p : PortId) (f : Session → Session) (r : PortId) : (s.modSession p f).victim r = s.victim r := rfl
@[simp] theorem State.queued_modSession (p : PortId) (f : Session → Session) (r : PortId) : (s.modSession p f).queued r = s.queued r := rfl
@[simp] theorem State.sumGrants_modSession (p : PortId) (f : Session → Session) : (s.modSession p f).sumGrants = s.sumGrants := rfl
@[simp] theorem State.headroom_modSession (p : PortId) (f : Session → Session) : (s.modSession p f).headroom = s.headroom := rfl
@[simp] theorem State.entry_modSession (p : PortId) (f : Session → Session) (k : SlotId) : (s.modSession p f).entry k = s.entry k := rfl
@[simp] theorem State.group_modSession (p : PortId) (f : Session → Session) (k : GroupId) : (s.modSession p f).group k = s.group k := rfl

@[simp] theorem State.grant_modTimers (p : PortId) (f : Timers → Timers) (r : PortId) : (s.modTimers p f).grant r = s.grant r := rfl
@[simp] theorem State.victim_modTimers (p : PortId) (f : Timers → Timers) (r : PortId) : (s.modTimers p f).victim r = s.victim r := rfl
@[simp] theorem State.queued_modTimers (p : PortId) (f : Timers → Timers) (r : PortId) : (s.modTimers p f).queued r = s.queued r := rfl
@[simp] theorem State.sumGrants_modTimers (p : PortId) (f : Timers → Timers) : (s.modTimers p f).sumGrants = s.sumGrants := rfl
@[simp] theorem State.headroom_modTimers (p : PortId) (f : Timers → Timers) : (s.modTimers p f).headroom = s.headroom := rfl
@[simp] theorem State.entry_modTimers (p : PortId) (f : Timers → Timers) (k : SlotId) : (s.modTimers p f).entry k = s.entry k := rfl
@[simp] theorem State.group_modTimers (p : PortId) (f : Timers → Timers) (k : GroupId) : (s.modTimers p f).group k = s.group k := rfl

@[simp] theorem State.grant_modPins (p : PortId) (f : Pins → Pins) (r : PortId) : (s.modPins p f).grant r = s.grant r := rfl
@[simp] theorem State.victim_modPins (p : PortId) (f : Pins → Pins) (r : PortId) : (s.modPins p f).victim r = s.victim r := rfl
@[simp] theorem State.queued_modPins (p : PortId) (f : Pins → Pins) (r : PortId) : (s.modPins p f).queued r = s.queued r := rfl
@[simp] theorem State.sumGrants_modPins (p : PortId) (f : Pins → Pins) : (s.modPins p f).sumGrants = s.sumGrants := rfl
@[simp] theorem State.headroom_modPins (p : PortId) (f : Pins → Pins) : (s.modPins p f).headroom = s.headroom := rfl
@[simp] theorem State.entry_modPins (p : PortId) (f : Pins → Pins) (k : SlotId) : (s.modPins p f).entry k = s.entry k := rfl
@[simp] theorem State.group_modPins (p : PortId) (f : Pins → Pins) (k : GroupId) : (s.modPins p f).group k = s.group k := rfl

@[simp] theorem State.grant_setPortState (p : PortId) (st : PortState) (r : PortId) : (s.setPortState p st).grant r = s.grant r := rfl
@[simp] theorem State.victim_setPortState (p : PortId) (st : PortState) (r : PortId) : (s.setPortState p st).victim r = s.victim r := rfl
@[simp] theorem State.queued_setPortState (p : PortId) (st : PortState) (r : PortId) : (s.setPortState p st).queued r = s.queued r := rfl
@[simp] theorem State.sumGrants_setPortState (p : PortId) (st : PortState) : (s.setPortState p st).sumGrants = s.sumGrants := rfl
@[simp] theorem State.headroom_setPortState (p : PortId) (st : PortState) : (s.setPortState p st).headroom = s.headroom := rfl
@[simp] theorem State.entry_setPortState (p : PortId) (st : PortState) (k : SlotId) : (s.setPortState p st).entry k = s.entry k := rfl
@[simp] theorem State.group_setPortState (p : PortId) (st : PortState) (k : GroupId) : (s.setPortState p st).group k = s.group k := rfl

@[simp] theorem State.port_setGrant (p : PortId) (mA : Nat) (r : PortId) : (s.setGrant p mA).port r = s.port r := rfl
@[simp] theorem State.phase_setGrant (p : PortId) (mA : Nat) (r : PortId) : (s.setGrant p mA).phase r = s.phase r := rfl
@[simp] theorem State.entry_setGrant (p : PortId) (mA : Nat) (k : SlotId) : (s.setGrant p mA).entry k = s.entry k := rfl
@[simp] theorem State.group_setGrant (p : PortId) (mA : Nat) (k : GroupId) : (s.setGrant p mA).group k = s.group k := rfl

@[simp] theorem State.port_leaveVictims (p : PortId) (r : PortId) : (s.leaveVictims p).port r = s.port r := rfl
@[simp] theorem State.phase_leaveVictims (p : PortId) (r : PortId) : (s.leaveVictims p).phase r = s.phase r := rfl
@[simp] theorem State.entry_leaveVictims (p : PortId) (k : SlotId) : (s.leaveVictims p).entry k = s.entry k := rfl
@[simp] theorem State.group_leaveVictims (p : PortId) (k : GroupId) : (s.leaveVictims p).group k = s.group k := rfl

@[simp] theorem State.port_setQueue (l : List QueueEntry) (r : PortId) : (s.setQueue l).port r = s.port r := rfl
@[simp] theorem State.phase_setQueue (l : List QueueEntry) (r : PortId) : (s.setQueue l).phase r = s.phase r := rfl
@[simp] theorem State.entry_setQueue (l : List QueueEntry) (k : SlotId) : (s.setQueue l).entry k = s.entry k := rfl
@[simp] theorem State.group_setQueue (l : List QueueEntry) (k : GroupId) : (s.setQueue l).group k = s.group k := rfl

@[simp] theorem State.port_withdraw (p : PortId) (r : PortId) : (s.withdraw p).port r = s.port r := rfl
@[simp] theorem State.phase_withdraw (p : PortId) (r : PortId) : (s.withdraw p).phase r = s.phase r := rfl
@[simp] theorem State.entry_withdraw (p : PortId) (k : SlotId) : (s.withdraw p).entry k = s.entry k := rfl
@[simp] theorem State.group_withdraw (p : PortId) (k : GroupId) : (s.withdraw p).group k = s.group k := rfl

@[simp] theorem State.port_raise (g : GroupId) (k : Kind) (r : PortId) : (s.raise g k).port r = s.port r := rfl
@[simp] theorem State.phase_raise (g : GroupId) (k : Kind) (r : PortId) : (s.raise g k).phase r = s.phase r := rfl
@[simp] theorem State.grant_raise (g : GroupId) (k : Kind) (r : PortId) : (s.raise g k).grant r = s.grant r := rfl
@[simp] theorem State.victim_raise (g : GroupId) (k : Kind) (r : PortId) : (s.raise g k).victim r = s.victim r := rfl
@[simp] theorem State.queued_raise (g : GroupId) (k : Kind) (r : PortId) : (s.raise g k).queued r = s.queued r := rfl
@[simp] theorem State.sumGrants_raise (g : GroupId) (k : Kind) : (s.raise g k).sumGrants = s.sumGrants := rfl
@[simp] theorem State.headroom_raise (g : GroupId) (k : Kind) : (s.raise g k).headroom = s.headroom := rfl
@[simp] theorem State.entry_raise (g : GroupId) (k : Kind) (n : SlotId) : (s.raise g k).entry n = s.entry n := rfl

@[simp] theorem State.port_raisePort (p : PortId) (k : Kind) (r : PortId) : (s.raisePort p k).port r = s.port r := rfl
@[simp] theorem State.phase_raisePort (p : PortId) (k : Kind) (r : PortId) : (s.raisePort p k).phase r = s.phase r := rfl
@[simp] theorem State.grant_raisePort (p : PortId) (k : Kind) (r : PortId) : (s.raisePort p k).grant r = s.grant r := rfl
@[simp] theorem State.victim_raisePort (p : PortId) (k : Kind) (r : PortId) : (s.raisePort p k).victim r = s.victim r := rfl
@[simp] theorem State.queued_raisePort (p : PortId) (k : Kind) (r : PortId) : (s.raisePort p k).queued r = s.queued r := rfl
@[simp] theorem State.sumGrants_raisePort (p : PortId) (k : Kind) : (s.raisePort p k).sumGrants = s.sumGrants := rfl
@[simp] theorem State.headroom_raisePort (p : PortId) (k : Kind) : (s.raisePort p k).headroom = s.headroom := rfl
@[simp] theorem State.entry_raisePort (p : PortId) (k : Kind) (n : SlotId) : (s.raisePort p k).entry n = s.entry n := rfl

@[simp] theorem State.port_raiseDevice (k : Kind) (r : PortId) : (s.raiseDevice k).port r = s.port r := rfl
@[simp] theorem State.phase_raiseDevice (k : Kind) (r : PortId) : (s.raiseDevice k).phase r = s.phase r := rfl
@[simp] theorem State.grant_raiseDevice (k : Kind) (r : PortId) : (s.raiseDevice k).grant r = s.grant r := rfl
@[simp] theorem State.victim_raiseDevice (k : Kind) (r : PortId) : (s.raiseDevice k).victim r = s.victim r := rfl
@[simp] theorem State.queued_raiseDevice (k : Kind) (r : PortId) : (s.raiseDevice k).queued r = s.queued r := rfl
@[simp] theorem State.sumGrants_raiseDevice (k : Kind) : (s.raiseDevice k).sumGrants = s.sumGrants := rfl
@[simp] theorem State.headroom_raiseDevice (k : Kind) : (s.raiseDevice k).headroom = s.headroom := rfl
@[simp] theorem State.entry_raiseDevice (k : Kind) (n : SlotId) : (s.raiseDevice k).entry n = s.entry n := rfl

@[simp] theorem State.port_modMemory (f : ProfileMemory → ProfileMemory) (r : PortId) : (s.modMemory f).port r = s.port r := rfl
@[simp] theorem State.phase_modMemory (f : ProfileMemory → ProfileMemory) (r : PortId) : (s.modMemory f).phase r = s.phase r := rfl
@[simp] theorem State.grant_modMemory (f : ProfileMemory → ProfileMemory) (r : PortId) : (s.modMemory f).grant r = s.grant r := rfl
@[simp] theorem State.victim_modMemory (f : ProfileMemory → ProfileMemory) (r : PortId) : (s.modMemory f).victim r = s.victim r := rfl
@[simp] theorem State.queued_modMemory (f : ProfileMemory → ProfileMemory) (r : PortId) : (s.modMemory f).queued r = s.queued r := rfl
@[simp] theorem State.sumGrants_modMemory (f : ProfileMemory → ProfileMemory) : (s.modMemory f).sumGrants = s.sumGrants := rfl
@[simp] theorem State.headroom_modMemory (f : ProfileMemory → ProfileMemory) : (s.modMemory f).headroom = s.headroom := rfl
@[simp] theorem State.group_modMemory (f : ProfileMemory → ProfileMemory) (k : GroupId) : (s.modMemory f).group k = s.group k := rfl

@[simp] theorem State.port_spendChoice (r : PortId) : (s.spendChoice).port r = s.port r := rfl
@[simp] theorem State.phase_spendChoice (r : PortId) : (s.spendChoice).phase r = s.phase r := rfl
@[simp] theorem State.grant_spendChoice (r : PortId) : (s.spendChoice).grant r = s.grant r := rfl
@[simp] theorem State.victim_spendChoice (r : PortId) : (s.spendChoice).victim r = s.victim r := rfl
@[simp] theorem State.queued_spendChoice (r : PortId) : (s.spendChoice).queued r = s.queued r := rfl
@[simp] theorem State.sumGrants_spendChoice : (s.spendChoice).sumGrants = s.sumGrants := rfl
@[simp] theorem State.headroom_spendChoice : (s.spendChoice).headroom = s.headroom := rfl
@[simp] theorem State.entry_spendChoice (k : SlotId) : (s.spendChoice).entry k = s.entry k := rfl
@[simp] theorem State.group_spendChoice (k : GroupId) : (s.spendChoice).group k = s.group k := rfl

@[simp] theorem State.port_respond (st : Status) (tag code : Byte) (data : List Byte) (r : PortId) : (s.respond st tag code data).port r = s.port r := rfl
@[simp] theorem State.phase_respond (st : Status) (tag code : Byte) (data : List Byte) (r : PortId) : (s.respond st tag code data).phase r = s.phase r := rfl
@[simp] theorem State.grant_respond (st : Status) (tag code : Byte) (data : List Byte) (r : PortId) : (s.respond st tag code data).grant r = s.grant r := rfl
@[simp] theorem State.victim_respond (st : Status) (tag code : Byte) (data : List Byte) (r : PortId) : (s.respond st tag code data).victim r = s.victim r := rfl
@[simp] theorem State.queued_respond (st : Status) (tag code : Byte) (data : List Byte) (r : PortId) : (s.respond st tag code data).queued r = s.queued r := rfl
@[simp] theorem State.sumGrants_respond (st : Status) (tag code : Byte) (data : List Byte) : (s.respond st tag code data).sumGrants = s.sumGrants := rfl
@[simp] theorem State.headroom_respond (st : Status) (tag code : Byte) (data : List Byte) : (s.respond st tag code data).headroom = s.headroom := rfl
@[simp] theorem State.entry_respond (st : Status) (tag code : Byte) (data : List Byte) (k : SlotId) : (s.respond st tag code data).entry k = s.entry k := rfl
@[simp] theorem State.group_respond (st : Status) (tag code : Byte) (data : List Byte) (k : GroupId) : (s.respond st tag code data).group k = s.group k := rfl

theorem State.grant_setGrant (p r : PortId) (mA : Nat) : (s.setGrant p mA).grant r = if r = p then mA else s.grant r := by
  simp only [State.grant, State.setGrant, Vector.getElem_set, Fin.ext_iff, eq_comm]

@[simp] theorem State.grant_setGrant_same (p : PortId) (mA : Nat) : (s.setGrant p mA).grant p = mA := by
  simp [State.grant_setGrant]

theorem State.grant_setGrant_ne (p r : PortId) (mA : Nat) (h : r ≠ p) : (s.setGrant p mA).grant r = s.grant r := by
  simp [State.grant_setGrant, h]

theorem State.victim_leaveVictims (p r : PortId) : (s.leaveVictims p).victim r = if r = p then false else s.victim r := by
  simp only [State.victim, State.leaveVictims, Vector.getElem_set, Fin.ext_iff, eq_comm]

@[simp] theorem State.victim_leaveVictims_same (p : PortId) : (s.leaveVictims p).victim p = false := by
  simp [State.victim_leaveVictims]

@[simp] theorem State.victim_setGrant (p r : PortId) (mA : Nat) : (s.setGrant p mA).victim r = s.victim r := rfl
@[simp] theorem State.queued_setGrant (p r : PortId) (mA : Nat) : (s.setGrant p mA).queued r = s.queued r := rfl
@[simp] theorem State.grant_leaveVictims (p r : PortId) : (s.leaveVictims p).grant r = s.grant r := rfl
@[simp] theorem State.queued_leaveVictims (p r : PortId) : (s.leaveVictims p).queued r = s.queued r := rfl
@[simp] theorem State.grant_setQueue (l : List QueueEntry) (r : PortId) : (s.setQueue l).grant r = s.grant r := rfl
@[simp] theorem State.victim_setQueue (l : List QueueEntry) (r : PortId) : (s.setQueue l).victim r = s.victim r := rfl
@[simp] theorem State.grant_withdraw (p r : PortId) : (s.withdraw p).grant r = s.grant r := rfl
@[simp] theorem State.victim_withdraw (p r : PortId) : (s.withdraw p).victim r = s.victim r := rfl
@[simp] theorem State.queue_setQueue (l : List QueueEntry) : (s.setQueue l).budget.queue = l := rfl
@[simp] theorem State.queue_setGrant (p : PortId) (mA : Nat) : (s.setGrant p mA).budget.queue = s.budget.queue := rfl
@[simp] theorem State.total_setGrant (p : PortId) (mA : Nat) : (s.setGrant p mA).budget.total = s.budget.total := rfl
@[simp] theorem State.total_setQueue (l : List QueueEntry) : (s.setQueue l).budget.total = s.budget.total := rfl
@[simp] theorem State.waitLimit_setGrant (p : PortId) (mA : Nat) : (s.setGrant p mA).budget.waitLimit = s.budget.waitLimit := rfl
@[simp] theorem State.waitLimit_setQueue (l : List QueueEntry) : (s.setQueue l).budget.waitLimit = s.budget.waitLimit := rfl
@[simp] theorem State.waitLimit_leaveVictims (p : PortId) : (s.leaveVictims p).budget.waitLimit = s.budget.waitLimit := rfl
@[simp] theorem State.waitLimit_withdraw (p : PortId) : (s.withdraw p).budget.waitLimit = s.budget.waitLimit := rfl
@[simp] theorem State.pendingTotal_setGrant (p : PortId) (mA : Nat) :
    (s.setGrant p mA).budget.pendingTotal = s.budget.pendingTotal := rfl
@[simp] theorem State.pendingTotal_setQueue (l : List QueueEntry) :
    (s.setQueue l).budget.pendingTotal = s.budget.pendingTotal := rfl
@[simp] theorem State.memory_modMemory (f : ProfileMemory → ProfileMemory) : (s.modMemory f).memory = f s.memory := rfl

/-- Withdrawing takes a port out of the queue and no other (R132). -/
theorem State.queued_withdraw (p r : PortId) : (s.withdraw p).queued r = (decide (r ≠ p) && s.queued r) := by
  simp only [State.queued, State.withdraw, State.setQueue, List.any_filter]
  by_cases h : r = p
  · subst h
    simp only [ne_eq, not_true_eq_false, decide_false, Bool.false_and, List.any_eq_false]
    intro e _
    by_cases he : e.port = r <;> simp [he]
  · simp only [ne_eq, h, not_false_eq_true, decide_true, Bool.true_and]
    congr 1
    funext e
    by_cases he : e.port = r <;> simp [he, h]

@[simp] theorem State.queued_withdraw_same (p : PortId) : (s.withdraw p).queued p = false := by
  simp [State.queued_withdraw]

end Sys2Proof.Machine
end

