-- ==== Sys2Proof/Laws/Acts.lean ====
section
/-! SUPPORT. `Acts p s t`: from `s` to `t` only port `p`, the ports that the budget queue holds, the Profile Memory and the
notices were worked on. One lemma for each shared operation, stated as a further operation after a run of them, so that the
proof about a command is the chain of the operations in its meaning. -/

namespace Sys2Proof.Machine

/-- What every operation of one port unit leaves alone. -/
structure Acts (p : PortId) (s t : State) : Prop where
  host : t.host = s.host
  freeCount : t.freeCount = s.freeCount
  pending : t.pending = s.pending
  mask : t.notices.mask = s.notices.mask
  threshold : t.memory.threshold = s.memory.threshold
  waitLimit : t.budget.waitLimit = s.budget.waitLimit
  settings : ∀ q, (t.port q).pins = (s.port q).pins ∧ (t.port q).policy = (s.port q).policy
  others : ∀ q, q ≠ p → s.queued q = false →
    t.queued q = false ∧ t.port q = s.port q ∧ t.grant q = s.grant q ∧ t.group (portGroup q) = s.group (portGroup q)

variable {p : PortId} {s t : State}

theorem Acts.refl (p : PortId) (s : State) : Acts p s s where
  host := rfl
  freeCount := rfl
  pending := rfl
  mask := rfl
  threshold := rfl
  waitLimit := rfl
  settings _ := ⟨rfl, rfl⟩
  others _ _ h := ⟨h, rfl, rfl, rfl⟩

theorem Acts.trans {u : State} (h : Acts p s t) (g : Acts p t u) : Acts p s u where
  host := g.host.trans h.host
  freeCount := g.freeCount.trans h.freeCount
  pending := g.pending.trans h.pending
  mask := g.mask.trans h.mask
  threshold := g.threshold.trans h.threshold
  waitLimit := g.waitLimit.trans h.waitLimit
  settings q := ⟨(g.settings q).1.trans (h.settings q).1, (g.settings q).2.trans (h.settings q).2⟩
  others q hq hs := by
    obtain ⟨a, b, c, d⟩ := h.others q hq hs
    obtain ⟨a', b', c', d'⟩ := g.others q hq a
    exact ⟨a', b'.trans b, c'.trans c, d'.trans d⟩

/-- The frame of the statements follows. -/
theorem Acts.othersKept (h : Acts p s t) : OthersKept p s t :=
  ⟨h.pending, h.freeCount, h.mask, h.threshold, h.waitLimit, fun q _ => h.settings q,
    fun q hq hs => (h.others q hq hs).2⟩

/-! ### The updates -/

theorem portGroup_ne {p q : PortId} (h : q ≠ p) : portGroup q ≠ portGroup p := by
  intro e
  apply h
  have e' := congrArg Fin.val e
  exact Fin.ext (by simpa [portGroup] using e')

theorem portGroup_ne_device (q : PortId) : portGroup q ≠ deviceGroup := by
  intro e
  have e' := congrArg Fin.val e
  have := q.isLt
  simp [portGroup, deviceGroup] at e'
  omega

/-- A raise touches the pending set and the epoch of its own group only (R177). -/
theorem State.group_raise (s : State) (g h : GroupId) (k : Kind) :
    (s.raise g k).group h
      = if h = g then { pending := (s.group g).pending ||| k.mask, epoch := (s.group g).epoch + 1 } else s.group h := by
  simp only [State.group, State.raise, Notices.raise, Notices.alertUpdate, Notices.setGroup, Vector.getElem_set, Fin.ext_iff,
    eq_comm]

theorem State.group_raise_ne (s : State) (g h : GroupId) (k : Kind) (e : h ≠ g) : (s.raise g k).group h = s.group h := by
  simp [State.group_raise, e]

/-- A raise in its own group (R177). -/
theorem raisedIn_raise (s : State) (g : GroupId) (k : Kind) : RaisedIn s (s.raise g k) g k := by
  simp [RaisedIn, State.group_raise]

theorem Acts.modPort (h : Acts p s t) (f : Port → Port)
    (hf : ∀ q, (f q).pins = q.pins ∧ (f q).policy = q.policy) : Acts p s (t.modPort p f) :=
  h.trans {
    host := rfl
    freeCount := rfl
    pending := rfl
    mask := rfl
    threshold := rfl
    waitLimit := rfl
    settings := fun q => by
      by_cases e : q = p
      · subst e
        simpa using hf _
      · simp [State.port_modPort_ne _ _ _ _ e]
    others := fun _ hq hs => ⟨hs, State.port_modPort_ne _ _ _ _ hq, rfl, rfl⟩ }

theorem Acts.modSession (h : Acts p s t) (f : Session → Session) : Acts p s (t.modSession p f) :=
  h.modPort _ fun _ => by exact ⟨rfl, rfl⟩

theorem Acts.modTimers (h : Acts p s t) (f : Timers → Timers) : Acts p s (t.modTimers p f) :=
  h.modPort _ fun _ => by exact ⟨rfl, rfl⟩

theorem Acts.setPortState (h : Acts p s t) (st : PortState) : Acts p s (t.setPortState p st) :=
  h.modPort _ fun _ => by exact ⟨rfl, rfl⟩

theorem Acts.setGrant (h : Acts p s t) (mA : Nat) : Acts p s (t.setGrant p mA) :=
  h.trans {
    host := rfl
    freeCount := rfl
    pending := rfl
    mask := rfl
    threshold := rfl
    waitLimit := rfl
    settings := fun _ => ⟨rfl, rfl⟩
    others := fun _ hq hs => ⟨hs, rfl, State.grant_setGrant_ne _ _ _ _ hq, rfl⟩ }

theorem Acts.leaveVictims (h : Acts p s t) (r : PortId) : Acts p s (t.leaveVictims r) :=
  h.trans {
    host := rfl
    freeCount := rfl
    pending := rfl
    mask := rfl
    threshold := rfl
    waitLimit := rfl
    settings := fun _ => ⟨rfl, rfl⟩
    others := fun _ _ hs => ⟨hs, rfl, rfl, rfl⟩ }

/-- A queue with no new port in it. -/
theorem Acts.setQueue (h : Acts p s t) (l : List QueueEntry)
    (hl : ∀ q, q ≠ p → t.queued q = false → l.any (·.port == q) = false) : Acts p s (t.setQueue l) :=
  h.trans {
    host := rfl
    freeCount := rfl
    pending := rfl
    mask := rfl
    threshold := rfl
    waitLimit := rfl
    settings := fun _ => ⟨rfl, rfl⟩
    others := fun q hq hs => ⟨hl q hq hs, rfl, rfl, rfl⟩ }

theorem Acts.withdraw (h : Acts p s t) (r : PortId) : Acts p s (t.withdraw r) :=
  h.trans {
    host := rfl
    freeCount := rfl
    pending := rfl
    mask := rfl
    threshold := rfl
    waitLimit := rfl
    settings := fun _ => ⟨rfl, rfl⟩
    others := fun _ _ hs => ⟨by simp [State.queued_withdraw, hs], rfl, rfl, rfl⟩ }

theorem Acts.raisePort (h : Acts p s t) (k : Kind) : Acts p s (t.raisePort p k) :=
  h.trans {
    host := rfl
    freeCount := rfl
    pending := rfl
    mask := rfl
    threshold := rfl
    waitLimit := rfl
    settings := fun _ => ⟨rfl, rfl⟩
    others := fun _ hq hs => ⟨hs, rfl, rfl, State.group_raise_ne _ _ _ _ (portGroup_ne hq)⟩ }

theorem Acts.raiseDevice (h : Acts p s t) (k : Kind) : Acts p s (t.raiseDevice k) :=
  h.trans {
    host := rfl
    freeCount := rfl
    pending := rfl
    mask := rfl
    threshold := rfl
    waitLimit := rfl
    settings := fun _ => ⟨rfl, rfl⟩
    others := fun _ _ hs => ⟨hs, rfl, rfl, State.group_raise_ne _ _ _ _ (portGroup_ne_device _)⟩ }

theorem Acts.modMemory (h : Acts p s t) (f : ProfileMemory → ProfileMemory)
    (hf : (f t.memory).threshold = t.memory.threshold) : Acts p s (t.modMemory f) :=
  h.trans {
    host := rfl
    freeCount := rfl
    pending := rfl
    mask := rfl
    threshold := hf
    waitLimit := rfl
    settings := fun _ => ⟨rfl, rfl⟩
    others := fun _ _ hs => ⟨hs, rfl, rfl, rfl⟩ }

/-- The change of the totals alone. -/
theorem Acts.setTotals (h : Acts p s t) (total : Nat) (pendingTotal : Option Nat) :
    Acts p s { t with budget := { t.budget with total := total, pendingTotal := pendingTotal } } :=
  h.trans {
    host := rfl
    freeCount := rfl
    pending := rfl
    mask := rfl
    threshold := rfl
    waitLimit := rfl
    settings := fun _ => ⟨rfl, rfl⟩
    others := fun _ _ hs => ⟨hs, rfl, rfl, rfl⟩ }

/-! ### The lines -/

/-- A request for a re-present keeps pins and policy. -/
theorem Port.requestRePresent_settings (q : Port) (target : Sig) (who : Requester) :
    (q.requestRePresent target who).pins = q.pins ∧ (q.requestRePresent target who).policy = q.policy := by
  unfold Port.requestRePresent
  (repeat' split) <;> exact ⟨rfl, rfl⟩

theorem Acts.representFor (h : Acts p s t) (target : Sig) (who : Requester) : Acts p s (t.representFor p target who) :=
  h.modPort _ fun q => Port.requestRePresent_settings q target who

/-! ### The budget arbiter -/

theorem Acts.fallGrant (h : Acts p s t) (mA : Nat) : Acts p s (t.fallGrant p mA) := by
  unfold State.fallGrant
  split
  · exact (h.setGrant mA).leaveVictims p
  · exact h.setGrant mA

/-- The head of the queue granted: its own port, which the queue held, is worked on (R129). -/
theorem Acts.grantHead (p : PortId) (s : State) (e : QueueEntry) (rest : List QueueEntry) (hq : s.budget.queue = e :: rest) :
    Acts p s (s.grantHead e rest) := by
  have hn : ∀ q, s.queued q = false → q ≠ e.port ∧ rest.any (·.port == q) = false := by
    intro q hs
    simp only [State.queued, hq, List.any_cons, Bool.or_eq_false_iff, beq_eq_false_iff_ne, ne_eq] at hs
    exact ⟨fun e => hs.1 e.symm, hs.2⟩
  have a : Acts e.port s (s.grantHead e rest) :=
    (((Acts.refl e.port s).setQueue rest fun q _ hs => (hn q hs).2).setGrant e.sig.offered).raisePort .grant
      |>.representFor e.sig .sequencer
  exact { a with others := fun q _ hs => a.others q (hn q hs).1 hs }

theorem Acts.serve (h : Acts p s t) (n : Nat) : Acts p s (State.serve n t) := by
  induction n generalizing t with
  | zero => exact h
  | succ n ih =>
    unfold State.serve
    split
    · exact h
    · rename_i e rest hq
      split
      · exact ih (h.trans (Acts.grantHead p t e rest hq))
      · exact h

theorem Acts.serveQueue (h : Acts p s t) : Acts p s t.serveQueue := h.serve _

theorem Acts.completeChange (h : Acts p s t) (total : Nat) : Acts p s (t.completeChange total) :=
  ((h.setTotals total none).raiseDevice .budgetApplied).serveQueue

/-- The end of a release event works on queued ports only (R128, R138). -/
theorem Acts.afterRelease (h : Acts p s t) : Acts p s t.afterRelease := by
  unfold State.afterRelease
  split
  · exact h.serveQueue
  · split
    · exact h.completeChange _
    · exact h

theorem Acts.joinQueue (h : Acts p s t) (sig : Sig) : Acts p s (t.joinQueue p sig) :=
  (h.setQueue _ fun q hq hs => by
    simp only [List.any_append, List.any_cons, List.any_nil, Bool.or_false, Bool.or_eq_false_iff, beq_eq_false_iff_ne]
    exact ⟨hs, fun e => hq e.symm⟩).raisePort .wait

theorem Acts.reportPresented (h : Acts p s t) (sig : Sig) : Acts p s (t.reportPresented p sig) := by
  unfold State.reportPresented
  split
  · exact (h.fallGrant _).afterRelease
  · exact h

/-! ### The Profile Memory -/

@[simp] theorem ProfileMemory.threshold_toFront (m : ProfileMemory) (n : SlotId) : (m.toFront n).threshold = m.threshold := by
  unfold ProfileMemory.toFront
  dsimp only
  split <;> rfl

@[simp] theorem ProfileMemory.threshold_fold (m : ProfileMemory) (n : SlotId) (sig : Sig) (b : Bool) :
    (m.fold n sig b).threshold = m.threshold := by
  unfold ProfileMemory.fold
  split
  · rw [ProfileMemory.threshold_toFront]
    rfl
  · rfl

theorem Acts.foldRequest (h : Acts p s t) (n : SlotId) (sig : Sig) (b : Bool) : Acts p s (t.foldRequest n sig b) :=
  h.modMemory _ (ProfileMemory.threshold_fold _ _ _ _)

theorem Acts.unbindRequest (h : Acts p s t) (n : SlotId) : Acts p s (t.unbindRequest n) := h.modMemory _ rfl

theorem Acts.confirmRequest (h : Acts p s t) (n : SlotId) (release : Half) : Acts p s (t.confirmRequest n release) := by
  unfold State.confirmRequest
  split
  · exact h.modMemory _ (ProfileMemory.threshold_toFront _ _)
  · exact h

theorem Acts.bindRequest (h : Acts p s t) (vendor product release : Half) :
    Acts p s (t.bindRequest vendor product release) := by
  unfold State.bindRequest
  split
  · exact h.modMemory _ (ProfileMemory.threshold_toFront _ _)
  · split
    · exact h.modMemory _ rfl
    · exact (h.modMemory _ rfl).raiseDevice _
    · exact h.raiseDevice _

/-! ### The trial sequencer -/

theorem Acts.compute (h : Acts p s t) (retry : Bool) : Acts p s (t.compute p retry) := h.modPort _ fun _ => by exact ⟨rfl, rfl⟩

theorem Acts.startWindow (h : Acts p s t) : Acts p s (t.startWindow p) := h.modPort _ fun _ => by exact ⟨rfl, rfl⟩

theorem Acts.enterSteady (h : Acts p s t) : Acts p s (t.enterSteady p) := (h.modPort _ fun _ => by exact ⟨rfl, rfl⟩).raisePort _

theorem Acts.enterSteadyHeld (h : Acts p s t) : Acts p s (t.enterSteadyHeld p) :=
  (h.modPort _ fun _ => by exact ⟨rfl, rfl⟩).raisePort _

theorem Acts.stepReached (h : Acts p s t) (k : StepKind) : Acts p s (t.stepReached p k) := by
  cases k
  · exact h.startWindow
  · exact h.enterSteady

theorem Acts.towardStep (h : Acts p s t) (st : TrialStep) : Acts p s (t.towardStep p st) := by
  unfold State.towardStep
  split
  · exact (h.reportPresented _).stepReached _
  · exact h.representFor _ _

theorem Acts.setCurrent (h : Acts p s t) (st : TrialStep) (rest : List TrialStep) : Acts p s (t.setCurrent p st rest) :=
  h.modSession _

theorem Acts.takeHead (h : Acts p s t) (st : TrialStep) (rest : List TrialStep) : Acts p s (t.takeHead p st rest) := by
  unfold State.takeHead
  dsimp only
  split
  · exact (h.setCurrent st rest).towardStep st
  · split
    · exact ((h.setCurrent st rest).setGrant _).towardStep st
    · exact ((h.setCurrent st rest).joinQueue _).modSession _

theorem Acts.exhaust (h : Acts p s t) : Acts p s (t.exhaust p) := by
  unfold State.exhaust
  dsimp only
  split
  · exact ((h.modSession _).reportPresented _).enterSteady
  · exact (h.modSession _).representFor _ _

theorem Acts.walk (h : Acts p s t) : Acts p s (t.walk p) := by
  unfold State.walk
  split
  · exact h
  · split
    · exact h.exhaust
    · exact h.takeHead _ _

/-- Taking a step works on the port and on the queue only (R49, R50). -/
theorem Acts.takeStep (h : Acts p s t) : Acts p s (t.takeStep p) := by
  unfold State.takeStep
  split
  · exact (h.compute _).walk
  · exact h.walk

theorem Acts.recompute (h : Acts p s t) : Acts p s (t.recompute p) := (h.compute _).takeStep

theorem Acts.markDue (h : Acts p s t) : Acts p s (t.markDue p) := h.modSession _

theorem Acts.nextStep (h : Acts p s t) : Acts p s (t.nextStep p) := by
  unfold State.nextStep
  split
  · exact h.recompute
  · exact h.takeStep

theorem Acts.reAim (h : Acts p s t) : Acts p s (t.reAim p) := by
  unfold State.reAim
  dsimp only
  split
  · exact h
  · split
    · exact (h.compute _).takeStep
    · exact (h.compute _).modSession _

theorem Acts.steadyOutcome (h : Acts p s t) : Acts p s (t.steadyOutcome p) := by
  unfold State.steadyOutcome
  dsimp only
  split
  · exact h.enterSteady.reAim
  · exact h.enterSteady

theorem Acts.recordVerdict (h : Acts p s t) (sig : Sig) (v : Verdict) : Acts p s (t.recordVerdict p sig v) := by
  unfold State.recordVerdict
  split
  · exact h
  · dsimp only
    split
    · exact h.modSession _
    · split
      · exact (h.modSession _).foldRequest _ _ _
      · exact h.modSession _

theorem Acts.followVerdict (h : Acts p s t) (v : Verdict) : Acts p s (t.followVerdict p v) := by
  cases v
  · exact h.steadyOutcome
  · exact h.nextStep
  · exact h.steadyOutcome

theorem Acts.judge (h : Acts p s t) (x : Session) (sig : Sig) : Acts p s (t.judge p x sig) :=
  (((h.modSession _).recordVerdict _ _).raisePort _).followVerdict _

theorem Acts.computationCall (h : Acts p s t) : Acts p s (t.computationCall p) := by
  unfold State.computationCall
  split
  · exact h
  · exact h.markDue
  · exact h.reAim

/-! ### Sheds at one port -/

theorem Acts.shedOccupied (h : Acts p s t) : Acts p s (t.shedOccupied p) := by
  unfold State.shedOccupied
  dsimp only
  split
  · exact (((h.withdraw p).modPort _ fun _ => by exact ⟨rfl, rfl⟩).fallGrant _).enterSteady
  · exact ((h.withdraw p).modPort _ fun _ => by exact ⟨rfl, rfl⟩).representFor _ _

theorem Acts.shedHeld (h : Acts p s t) : Acts p s (t.shedHeld p) := by
  unfold State.shedHeld
  dsimp only
  split
  · exact ((h.modSession _).fallGrant _).enterSteadyHeld
  · exact (h.modSession _).modPort _ fun q => Port.requestRePresent_settings q _ _

theorem Acts.shedSuspended (h : Acts p s t) : Acts p s (t.shedSuspended p) := by
  unfold State.shedSuspended
  split
  · exact (h.modSession _).fallGrant _
  · exact h

/-- A shed works on its own port (R135). -/
theorem Acts.shedPort (h : Acts p s t) : Acts p s (t.shedPort p) := by
  unfold State.shedPort
  split
  · exact h.shedOccupied
  · exact h.shedHeld
  · exact h.shedSuspended
  · exact h.shedSuspended
  · exact h
  · exact h
  · exact h
  · exact h

theorem Acts.shedVictim (h : Acts p s t) : Acts p s (t.shedVictim p) := (h.raisePort _).shedPort

/-! ### Sessions -/

theorem Acts.openSession (h : Acts p s t) : Acts p s (t.openSession p) := (h.modPort _ fun _ => by exact ⟨rfl, rfl⟩).raisePort _

theorem Acts.victimRest (h : Acts p s t) : Acts p s (t.victimRest p) := by
  unfold State.victimRest
  split
  · exact h.shedOccupied
  · exact h

theorem Acts.openRemovable (h : Acts p s t) : Acts p s (t.openRemovable p) := h.openSession.victimRest

theorem Acts.openFixed (h : Acts p s t) : Acts p s (t.openFixed p) :=
  h.openSession.modPort _ fun q => by
    split
    · exact ⟨rfl, rfl⟩
    · exact ⟨rfl, rfl⟩

theorem Acts.unbindSession (h : Acts p s t) : Acts p s (t.unbindSession p) := by
  unfold State.unbindSession
  split
  · exact h
  · exact h.unbindRequest _

theorem Acts.endSession (h : Acts p s t) : Acts p s (t.endSession p) :=
  (h.unbindSession.withdraw p).modPort _ fun _ => by exact ⟨rfl, rfl⟩

theorem Acts.shutDown (h : Acts p s t) (mA : Nat) : Acts p s (t.shutDown p mA) :=
  (((h.modPort Port.switchOff fun _ => ⟨rfl, rfl⟩).endSession).modTimers _).fallGrant mA

theorem Acts.beginTrials (h : Acts p s t) : Acts p s (t.beginTrials p) := (h.modSession _).recompute

theorem Acts.settleEnd (h : Acts p s t) : Acts p s (t.settleEnd p) := by
  unfold State.settleEnd
  split
  · exact h
  · split
    · exact h.recompute
    · split
      · exact h.modPort _ fun _ => by exact ⟨rfl, rfl⟩
      · exact h.beginTrials

theorem Acts.resettle (h : Acts p s t) : Acts p s (t.resettle p) := h.modPort _ fun _ => by exact ⟨rfl, rfl⟩

theorem Acts.detach (h : Acts p s t) : Acts p s (t.detach p) := by
  unfold State.detach
  dsimp only
  split
  · exact ((h.modPort Port.detach fun _ => ⟨rfl, rfl⟩).withdraw p).afterRelease
  · exact h.modPort Port.detach fun _ => ⟨rfl, rfl⟩

theorem Acts.unhold (h : Acts p s t) : Acts p s (t.unhold p) := h.modPort _ fun _ => by exact ⟨rfl, rfl⟩

theorem Acts.bounce (h : Acts p s t) (sig : Sig) : Acts p s (t.bounce p sig) :=
  (((((h.recordVerdict sig .rejected).raisePort _).unhold).modSession _).resettle).raisePort _

theorem Acts.reAttach (h : Acts p s t) : Acts p s (t.reAttach p) := by
  unfold State.reAttach
  dsimp only
  split
  · exact ((h.unhold.raisePort _).modSession _).shedOccupied
  · split
    · exact (h.unhold.raisePort _).modSession _
    · exact (h.unhold.raisePort _).resettle

theorem Acts.returnInHold (h : Acts p s t) : Acts p s (t.returnInHold p) := by
  unfold State.returnInHold
  split
  · exact h
  · split
    · exact h.bounce _
    · exact h.reAttach

theorem Acts.backToP (h : Acts p s t) : Acts p s (t.backToP p) := by
  unfold State.backToP
  split
  · split
    · exact (h.fallGrant _).afterRelease
    · exact h
  · exact h.modPort _ fun q => Port.requestRePresent_settings q _ _

theorem Acts.holdEnd (h : Acts p s t) : Acts p s (t.holdEnd p) := ((h.endSession.setPortState _).raisePort _).backToP

theorem Acts.resume (h : Acts p s t) (x : Session) : Acts p s (t.resume p x) :=
  h.modPort _ fun q => Port.requestRePresent_settings q _ _

theorem Acts.presentP (h : Acts p s t) : Acts p s (t.presentP p) := h.modPort _ fun _ => by exact ⟨rfl, rfl⟩

theorem Acts.powerGoodEnd (h : Acts p s t) : Acts p s (t.powerGoodEnd p) := by
  unfold State.powerGoodEnd
  dsimp only
  split
  · split
    · exact (h.modTimers _).presentP.openFixed
    · exact (h.modTimers _).resume _
  · split
    · exact ((h.modTimers _).presentP.setPortState _).openRemovable
    · exact (h.modTimers _).presentP.setPortState _

theorem Acts.enterPowering (h : Acts p s t) : Acts p s (t.enterPowering p) := by
  unfold State.enterPowering
  dsimp only
  split
  · exact (h.modPort _ fun _ => by exact ⟨rfl, rfl⟩).powerGoodEnd
  · exact h.modPort _ fun _ => by exact ⟨rfl, rfl⟩

theorem Acts.trip (h : Acts p s t) : Acts p s (t.trip p) :=
  (((h.shutDown _).modPort _ fun _ => by exact ⟨rfl, rfl⟩).raisePort _).afterRelease

theorem Acts.compareReading (h : Acts p s t) (mA : Nat) : Acts p s (t.compareReading p mA) := by
  unfold State.compareReading
  split
  · split
    · exact h.trip
    · exact h.modPort _ fun _ => by exact ⟨rfl, rfl⟩
  · exact h.modPort _ fun _ => by exact ⟨rfl, rfl⟩

theorem Acts.enterRecovery (h : Acts p s t) : Acts p s (t.enterRecovery p) := by
  have a := ((h.modPort Port.enterRecovery fun _ => ⟨rfl, rfl⟩).withdraw p).raisePort .recovery
  unfold State.enterRecovery
  dsimp only
  (repeat' split) <;> first | exact a.shedSuspended.afterRelease | exact a.afterRelease | exact a.shedSuspended | exact a

theorem Acts.linkQuarantine (h : Acts p s t) : Acts p s (t.linkQuarantine p) :=
  (((h.shutDown _).modPort _ fun _ => by exact ⟨rfl, rfl⟩).raisePort _).afterRelease

theorem Acts.overcurrentQuarantine (h : Acts p s t) : Acts p s (t.overcurrentQuarantine p) :=
  (h.modPort _ fun _ => by exact ⟨rfl, rfl⟩).raisePort _

/-! ### The end of a re-present -/

theorem Acts.sessionContinues (h : Acts p s t) (r : RePresent) (c : Option TrialStep) :
    Acts p s (t.sessionContinues p r c) := by
  unfold State.sessionContinues
  split
  · exact h.enterSteady
  · split
    · exact h.recompute
    · split
      · split
        · exact h.startWindow
        · exact h.steadyOutcome
      · exact h.steadyOutcome

theorem Acts.closeWindow (h : Acts p s t) : Acts p s (t.closeWindow p) :=
  h.modPort _ fun q => by
    dsimp only
    split
    · exact ⟨rfl, rfl⟩
    · exact ⟨rfl, rfl⟩

theorem Acts.resumeContinues (h : Acts p s t) (r : RePresent) (x : Session) : Acts p s (t.resumeContinues p r x) := by
  unfold State.resumeContinues
  dsimp only
  split
  · exact h.closeWindow.enterSteady
  · split
    · exact h.closeWindow.recompute
    · split
      · exact h.closeWindow.resettle
      · exact h.closeWindow.steadyOutcome
      · exact h.closeWindow.recompute
      · exact h.closeWindow.recompute

/-- The sessions `awaitTarget` leaves: the waiting one with its awaited signature as target, any other as it was (R43). -/
theorem State.port_awaitTarget (t : State) (p : PortId) :
    (t.awaitTarget p).port p = { t.port p with
      session := (t.port p).session.map fun x =>
        if x.phase = some .waitingBudget then { x with target := x.current.map (·.sig) } else x } := by
  simp [State.awaitTarget, State.modSession]

/-- Outside WAITING_BUDGET `awaitTarget` leaves the port as it is. -/
theorem State.port_awaitTarget_settled {t : State} {p : PortId} (h : t.phase p ≠ some .waitingBudget) :
    (t.awaitTarget p).port p = t.port p := by
  rw [State.port_awaitTarget]
  have e : ((t.port p).session.map fun x =>
      if x.phase = some .waitingBudget then { x with target := x.current.map (·.sig) } else x) = (t.port p).session := by
    unfold State.phase at h
    cases hs : (t.port p).session with
    | none => rfl
    | some x =>
      have hx : x.phase ≠ some .waitingBudget := by simpa [hs] using h
      simp [hx]
  rw [e]

theorem Acts.awaitTarget (h : Acts p s t) : Acts p s (t.awaitTarget p) := h.modSession _

theorem Acts.continueOccupied (h : Acts p s t) (r : RePresent) (x : Session) : Acts p s (t.continueOccupied p r x) := by
  unfold State.continueOccupied
  split
  · split
    · exact h.resumeContinues r x
    · exact h.sessionContinues r _
  · exact h.awaitTarget

theorem Acts.continueHeld (h : Acts p s t) (r : RePresent) (x : Session) : Acts p s (t.continueHeld p r x) := by
  unfold State.continueHeld
  split
  · exact h.enterSteadyHeld
  · split
    · exact h.modSession _
    · split
      · split
        · split
          · exact h.modSession _
          · exact h.enterSteadyHeld
        · exact h.enterSteadyHeld
      · exact h

theorem Acts.continueAfter (h : Acts p s t) (r : RePresent) (before : Port) : Acts p s (t.continueAfter p r before) := by
  unfold State.continueAfter
  split
  · exact h
  · split <;> first | exact h.continueOccupied r _ | exact h.continueHeld r _ | exact h

theorem Acts.rePresentEnd (h : Acts p s t) (r : RePresent) : Acts p s (t.rePresentEnd p r) :=
  ((h.modPort _ fun _ => by exact ⟨rfl, rfl⟩).reportPresented _).continueAfter r _

/-! ### HENn -/

theorem Port.hubLines_settings (q : Port) : q.hubLines.pins = q.pins ∧ q.hubLines.policy = q.policy := by
  unfold Port.hubLines
  (repeat' split) <;> exact ⟨rfl, rfl⟩

theorem Acts.hubRises (h : Acts p s t) : Acts p s (t.hubRises p) := by
  have a := h.modPort Port.hubTakesLines Port.hubLines_settings
  unfold State.hubRises
  dsimp only
  split
  · split
    · exact (a.withdraw p).afterRelease
    · exact a
  · split
    · exact ((h.withdraw p).afterRelease).recompute
    · exact h

theorem Acts.hubFalls (h : Acts p s t) : Acts p s (t.hubFalls p) := by
  unfold State.hubFalls
  dsimp only
  split
  · exact h.recompute
  · exact h

/-! ### Binding -/

theorem Acts.foldAll (h : Acts p s t) (n : SlotId) (l : List VerdictEntry) :
    Acts p s (l.foldl (fun u v => u.foldRequest n v.sig (v.verdict = .accepted)) t) := by
  induction l generalizing t with
  | nil => exact h
  | cons v l ih => exact ih (h.foldRequest _ _ _)

theorem Acts.handOver (h : Acts p s t) (n : SlotId) (x : Session) : Acts p s (t.handOver p n x) := by
  unfold State.handOver
  dsimp only
  split
  · exact (h.modSession _).foldAll _ _
  · exact h.modSession _

theorem Acts.takeAnswer (h : Acts p s t) (x : Session) (a : BindAnswer) : Acts p s (t.takeAnswer p x a) := by
  cases a
  · exact (h.modSession _).handOver _ _
  · exact (h.modSession _).handOver _ _
  · exact h

theorem Acts.bindSession (h : Acts p s t) (x : Session) (i : Identity) : Acts p s (t.bindSession p x i) :=
  (h.bindRequest _ _ _).takeAnswer _ _

theorem Acts.postBinding (h : Acts p s t) (x : Session) (i : Identity) : Acts p s (t.postBinding p x i) := by
  have a : Acts p s (t.setIdentity p i) := h.modSession _
  unfold State.postBinding
  dsimp only
  split
  · exact a.bindSession x i
  · exact a.confirmRequest _ _
  · exact ((((a.unbindRequest _).modSession _).bindSession x i)).raisePort _

theorem Acts.postActs (h : Acts p s t) (calls : Bool) : Acts p s (t.postActs p calls) := by
  unfold State.postActs
  split
  · exact (h.modTimers _).beginTrials
  · split
    · exact h.computationCall
    · exact h

/-- A Post Identity works on its own port, the queue and the Profile Memory (R103 to R112). -/
theorem Acts.takeIdentity (h : Acts p s t) (x : Session) (i : Identity) : Acts p s (t.takeIdentity p x i) :=
  (h.postBinding x i).postActs _

theorem Acts.retry (h : Acts p s t) : Acts p s (t.retry p) := ((h.modSession _).compute _).takeStep

/-! ### The event handlers -/

theorem Acts.windowEnd (h : Acts p s t) : Acts p s (State.windowEnd p t) := by
  unfold State.windowEnd
  split
  · exact h
  · split
    · exact h.judge _ _
    · exact h

theorem Acts.waitEnd (h : Acts p s t) : Acts p s (State.waitEnd p t) := by
  unfold State.waitEnd
  split
  · exact ((h.withdraw p).afterRelease).nextStep
  · exact h

theorem Acts.coolDownEnd (h : Acts p s t) : Acts p s (State.coolDownEnd p t) := by
  unfold State.coolDownEnd
  split
  · exact h.enterPowering
  · exact h.overcurrentQuarantine

theorem Acts.linkEnd (h : Acts p s t) : Acts p s (State.linkEnd p t) := by
  unfold State.linkEnd
  split
  · exact h.enterRecovery
  · exact h.linkQuarantine

theorem Acts.reading (h : Acts p s t) (mA : Nat) : Acts p s (State.reading p mA t) := by
  unfold State.reading
  dsimp only
  split
  · exact (h.modPort _ fun _ => by exact ⟨rfl, rfl⟩).compareReading _
  · exact h.modPort _ fun _ => by exact ⟨rfl, rfl⟩

end Sys2Proof.Machine
end

