-- ==== Sys2Proof/Laws/Budget.lean ====
section
/-! SUPPORT. What the budget arbiter's operations do to the grants, and how a property is carried through a service of the
queue and the end of a release event (R119, R125, R128, R129, R138). -/

namespace Sys2Proof.Machine

/-- A grant replaced moves the sum of the grants by the difference (R119). -/
theorem State.sumGrants_setGrant (s : State) (p : PortId) (mA : Nat) :
    (s.setGrant p mA).sumGrants + s.grant p = s.sumGrants + mA := by
  simp only [State.sumGrants, State.grant_setGrant]
  match p with
  | 0 => simp; omega
  | 1 => simp; omega
  | 2 => simp; omega
  | 3 => simp; omega
  | 4 => simp; omega
  | 5 => simp; omega
  | 6 => simp; omega
  | 7 => simp; omega

/-- A grant is part of the sum. -/
theorem State.grant_le_sumGrants (s : State) (p : PortId) : s.grant p ≤ s.sumGrants := by
  unfold State.sumGrants
  match p with
  | 0 => omega
  | 1 => omega
  | 2 => omega
  | 3 => omega
  | 4 => omega
  | 5 => omega
  | 6 => omega
  | 7 => omega

@[simp] theorem State.grant_fallGrant_same (s : State) (p : PortId) (mA : Nat) : (s.fallGrant p mA).grant p = mA := by
  unfold State.fallGrant
  split <;> simp

theorem State.grant_fallGrant_ne (s : State) (p r : PortId) (mA : Nat) (h : r ≠ p) :
    (s.fallGrant p mA).grant r = s.grant r := by
  unfold State.fallGrant
  split <;> simp [State.grant_setGrant_ne _ _ _ _ h]

/-- A port whose grant falls to its base is a victim no more (R137). -/
theorem State.victim_fallGrant_base (s : State) (p : PortId) (mA : Nat) (h : mA ≤ 500) :
    (s.fallGrant p mA).victim p = false := by
  unfold State.fallGrant baseGrant
  simp [h]

@[simp] theorem State.port_fallGrant (s : State) (p r : PortId) (mA : Nat) : (s.fallGrant p mA).port r = s.port r := by
  unfold State.fallGrant
  split <;> rfl

@[simp] theorem State.queue_fallGrant (s : State) (p : PortId) (mA : Nat) :
    (s.fallGrant p mA).budget.queue = s.budget.queue := by
  unfold State.fallGrant
  split <;> rfl

@[simp] theorem State.memory_fallGrant (s : State) (p : PortId) (mA : Nat) : (s.fallGrant p mA).memory = s.memory := by
  unfold State.fallGrant
  split <;> rfl

@[simp] theorem State.notices_fallGrant (s : State) (p : PortId) (mA : Nat) : (s.fallGrant p mA).notices = s.notices := by
  unfold State.fallGrant
  split <;> rfl

/-- What a property must survive to survive a service of the queue: the grant of a head that fits (R129). -/
def KeptByGrant (P : State → Prop) : Prop :=
  ∀ s e rest, P s → s.budget.queue = e :: rest → s.need e.port e.sig ≤ s.headroom → P (s.grantHead e rest)

/-- What a property must survive to survive the completion of a change: the pending total applied (R138). -/
def KeptByApply (P : State → Prop) : Prop :=
  ∀ s total, P s → s.budget.pendingTotal = some total → s.noVictims = true →
    P ({ s with budget := { s.budget with total := total, pendingTotal := none } }.raiseDevice .budgetApplied)

/-- A property that each grant keeps holds after a service of the queue. -/
theorem State.serve_keeps {P : State → Prop} (hg : KeptByGrant P) (n : Nat) (s : State) (h : P s) : P (State.serve n s) := by
  induction n generalizing s with
  | zero => exact h
  | succ n ih =>
    unfold State.serve
    split
    · exact h
    · rename_i e rest hq
      split
      · rename_i hfit
        exact ih _ (hg s e rest h hq hfit)
      · exact h

/-- A property that each grant and each completion keep holds after a release event. -/
theorem State.afterRelease_keeps {P : State → Prop} (hg : KeptByGrant P) (ha : KeptByApply P) (s : State) (h : P s) :
    P s.afterRelease := by
  unfold State.afterRelease
  split
  · exact State.serve_keeps hg _ _ h
  · rename_i total ht
    split
    · rename_i hv
      exact State.serve_keeps hg _ _ (ha s total h ht hv)
    · exact h

/-- After a service long enough for the queue, the head that is left does not fit the headroom (R129 step 3). -/
theorem State.serve_head (n : Nat) (s : State) (h : s.budget.queue.length ≤ n) (e : QueueEntry)
    (he : (State.serve n s).budget.queue.head? = some e) :
    (State.serve n s).headroom < (State.serve n s).need e.port e.sig := by
  induction n generalizing s with
  | zero =>
    rw [show State.serve 0 s = s from rfl, List.length_eq_zero_iff.mp (Nat.le_zero.mp h)] at he
    cases he
  | succ n ih =>
    unfold State.serve at he ⊢
    split at he <;> rename_i hq
    · simp [hq] at he
    · split at he <;> rename_i hfit
      · rw [if_pos hfit]
        exact ih _ (by rw [hq] at h; exact Nat.le_of_succ_le_succ h) he
      · rw [if_neg hfit]
        simp only [hq, List.head?_cons, Option.some.injEq] at he
        subst he
        exact Nat.lt_of_not_le hfit

/-- A release event with no change pending leaves a head that does not fit, or none (R128). -/
theorem State.afterRelease_head (s : State) (h : s.budget.pendingTotal = none) (e : QueueEntry)
    (he : s.afterRelease.budget.queue.head? = some e) : s.afterRelease.headroom < s.afterRelease.need e.port e.sig := by
  have a : s.afterRelease = State.serve s.budget.queue.length s := by
    unfold State.afterRelease
    rw [h]
    rfl
  rw [a] at he ⊢
  exact State.serve_head _ s (Nat.le_refl _) e he

/-- With nobody waiting a release event serves nobody. -/
theorem State.serve_nil (n : Nat) (s : State) (h : s.budget.queue = []) : State.serve n s = s := by
  cases n with
  | zero => rfl
  | succ n =>
    unfold State.serve
    rw [h]

/-- Neither a service nor a release event touches the Profile Memory. -/
@[simp] theorem State.memory_serve (n : Nat) (s : State) : (State.serve n s).memory = s.memory :=
  State.serve_keeps (P := fun t => t.memory = s.memory) (fun _ _ _ h _ _ => h) n s rfl

@[simp] theorem State.memory_afterRelease (s : State) : s.afterRelease.memory = s.memory :=
  State.afterRelease_keeps (P := fun t => t.memory = s.memory) (fun _ _ _ h _ _ => h) (fun _ _ h _ _ => h) s rfl

@[simp] theorem State.memory_reportPresented (s : State) (p : PortId) (sig : Sig) :
    (s.reportPresented p sig).memory = s.memory := by
  unfold State.reportPresented
  split <;> simp

/-- The end of a release event leaves a port that does not wait as it is. -/
theorem State.afterRelease_frame (s : State) (p : PortId) (h : s.queued p = false) :
    s.afterRelease.port p = s.port p ∧ s.afterRelease.grant p = s.grant p
      ∧ s.afterRelease.group (portGroup p) = s.group (portGroup p) ∧ s.afterRelease.queued p = false := by
  obtain ⟨r, hr⟩ : ∃ r : PortId, p ≠ r := ⟨if p = 0 then 1 else 0, by split <;> simp_all⟩
  obtain ⟨a, b, c, d⟩ := ((Acts.refl r s).afterRelease).others p hr h
  exact ⟨b, c, d, a⟩

end Sys2Proof.Machine
end

