-- ==== Sys2Proof/Laws/Codes.lean ====
section
/-! SUPPORT. Codes and their values go back and forth; the CRC-8 closes its own run; a frame that passes the checks; what a
host command's wrapping adds (R188 to R194, R201). -/

namespace Sys2Proof.Machine

/-! ### Codes -/

@[simp] theorem portOf_code (p : PortId) : portOf (BitVec.ofNat 8 p.val) = some p := by
  revert p
  decide

@[simp] theorem groupOf_code (g : GroupId) : groupOf (BitVec.ofNat 8 g.val) = some g := by
  revert g
  decide

@[simp] theorem slotOf_code (n : SlotId) : slotOf (BitVec.ofNat 8 n.val) = some n := by
  revert n
  decide

@[simp] theorem sigOf_rank (g : Sig) : sigOf (BitVec.ofNat 8 g.rank) = some g := by
  cases g <;> rfl

@[simp] theorem yesNoOf_yesNo (b : Bool) : yesNoOf (yesNo b) = some b := by
  cases b <;> rfl

theorem portOf_above (b : Byte) (h : 7 < b.toNat) : portOf b = none := by
  unfold portOf
  rw [dif_neg]
  omega

theorem groupOf_above (b : Byte) (h : 8 < b.toNat) : groupOf b = none := by
  unfold groupOf
  rw [dif_neg]
  omega

theorem slotOf_above (b : Byte) (h : 47 < b.toNat) : slotOf b = none := by
  unfold slotOf
  rw [dif_neg]
  omega

/-- A 16-bit value is the pair of its bytes, most significant first (R201). -/
@[simp] theorem halfOf_bytes (h : Half) : halfOf (hiByte h) (loByte h) = h := by
  unfold halfOf hiByte loByte
  ext i hi
  simp only [BitVec.getElem_append, BitVec.getElem_extractLsb']
  split
  · simp [BitVec.getLsbD_eq_getElem hi]
  · rename_i h8
    have e : 8 + (i - 8) = i := by omega
    simp [e, BitVec.getLsbD_eq_getElem hi]

/-! ### The CRC-8 -/

theorem crc8_append (bytes : List Byte) (b : Byte) : crc8 (bytes ++ [b]) = crcByte (crc8 bytes) b := by
  simp [crc8]

/-- A byte equal to the register empties it (R192). -/
@[simp] theorem crcByte_self (r : Byte) : crcByte r r = 0x00#8 := by
  unfold crcByte
  rw [BitVec.xor_self]
  decide

/-! ### Frames -/

/-- A frame whose length is its command's and whose last byte is its CRC-8 is read as its command (R191). -/
theorem decodeFrame_whole (tag code : Byte) (params : List Byte) (c : Instr) (hl : params.length ≤ 32)
    (hp : parameterLength code = some params.length) (hc : commandOf tag code params = some c) :
    decodeFrame ((tag :: code :: BitVec.ofNat 8 params.length :: params)
      ++ [crc8 (tag :: code :: BitVec.ofNat 8 params.length :: params)]) = .ok c := by
  have e : (BitVec.ofNat 8 params.length).toNat = params.length := by
    rw [BitVec.toNat_ofNat]
    omega
  have h1 : ¬ 32 < params.length := by omega
  simp [decodeFrame, e, h1, hp, hc]

/-! ### Responses -/

@[simp] theorem State.taking_running (s : State) (f : State → State) (h : s.host.inReset = false) : s.taking f = f s := by
  simp [State.taking, h]

@[simp] theorem State.running_running (s : State) (f : State → State) (h : s.host.inReset = false) :
    s.running f = f s := by
  simp [State.running, h]

@[simp] theorem State.onPort_code (s : State) (tag code : Byte) (p : PortId) (f : PortId → State) :
    s.onPort tag code (BitVec.ofNat 8 p.val) f = f p := by
  simp [State.onPort]

theorem State.onPort_above (s : State) (tag code b : Byte) (f : PortId → State) (h : 7 < b.toNat) :
    s.onPort tag code b f = s.refuse .badParam tag code := by
  simp [State.onPort, portOf_above b h]

/-- A response changes the response slot and ends the transaction, nothing else (R193, R194). -/
theorem sameBlocks_respond (s : State) (st : Status) (tag code : Byte) (data : List Byte) :
    SameBlocks s (s.respond st tag code data) :=
  ⟨rfl, rfl, rfl, rfl, rfl, rfl, rfl, rfl, rfl⟩

theorem replied_respond (s : State) (st : Status) (tag code : Byte) (data : List Byte) :
    Replied (s.respond st tag code data) st tag code data :=
  rfl

/-- In a read the part sends the next byte while the controller acknowledges (R195). -/
theorem State.sent_reading {s : State} {acks : List Bool} (h : s.host.reading = true) (ha : acks.all id = true) :
    s.sent acks = some (s.readByte acks.length) := by
  simp [State.sent, h, ha]

/-- SDA is released from a byte not acknowledged on (R195). -/
theorem State.sent_released {s : State} {acks : List Bool} (h : false ∈ acks) : s.sent acks = none := by
  have e : acks.all id = false := List.all_eq_false.2 ⟨false, h, by simp⟩
  simp [State.sent, e]

/-- SDA is released outside a read and while RST# is low (R186, R195). -/
theorem State.sent_idle {s : State} (acks : List Bool) (h : s.host.reading = false) : s.sent acks = none := by
  simp [State.sent, h]

theorem sameBlocks_refuse (s : State) (st : Status) (tag code : Byte) : SameBlocks s (s.refuse st tag code) :=
  sameBlocks_respond s st tag code []

theorem replied_refuse (s : State) (st : Status) (tag code : Byte) : Replied (s.refuse st tag code) st tag code [] :=
  rfl

end Sys2Proof.Machine
end

