-- ==== Sys2Proof/Laws/Lines.lean ====
section
/-! SUPPORT. What the operations of the lines do to one port unit's line and probe laws (R2, R4, R6, R7, R10 to R13), and how
the laws of all ports follow from the law of the port worked on. -/

namespace Sys2Proof.Machine

/-- The line law reads the switch, the state, the presented condition, the re-present, the overcurrent mark and HENn only. -/
theorem Port.linesLaw_congr {q r : Port} (h : q.linesLaw) (hs : r.switchOn = q.switchOn) (ht : r.state = q.state)
    (hp : r.presented = q.presented) (hr : r.rePresent = q.rePresent) (ho : r.overcurrent = q.overcurrent)
    (hh : r.pins.hen = q.pins.hen) : r.linesLaw := by
  unfold Port.linesLaw
  rw [hs, ht, hp, hr, ho, hh]
  exact h

/-- The probe law reads the detector, the presented condition and the probe timer only. -/
theorem Port.probeLaw_congr {q r : Port} (h : q.probeLaw) (hd : r.detector = q.detector) (hp : r.presented = q.presented)
    (ht : r.timers.probe = q.timers.probe) : r.probeLaw := by
  unfold Port.probeLaw
  rw [hd, hp, ht]
  exact h

/-- P may always be presented (R1). -/
theorem Port.turned_not_chargeOnly (q : Port) (target : Sig) (h : q.pins.hen = true) :
    (q.turned target).chargeOnly = false := by
  unfold Port.turned Port.hubTurns
  rw [h]
  cases target <;> rfl

/-- A presentation keeps the line law on a port that is on, of a letter that the hub lets through (R2, R4, R14). -/
theorem Port.linesLaw_present {q : Port} (h : q.linesLaw) (c : Sig) (hon : q.switchOn = true)
    (hc : q.pins.hen = true → c.chargeOnly = false) : (q.present c).linesLaw := by
  refine ⟨h.1, fun hoff => ?_, fun hh => ⟨fun d hd => ?_, fun r hr => (by cases hr)⟩, fun hr => (by cases hr)⟩
  · have : q.switchOn = false := hoff
    rw [hon] at this
    cases this
  · cases hd
    exact hc hh

/-- A presentation sets detector and probe timer as the probe law asks, whatever they were (R6, R7). -/
theorem Port.probeLaw_present (q : Port) (c : Sig) : (q.present c).probeLaw := by
  unfold Port.probeLaw Port.present
  cases c <;> cases q.pins.probeBand <;> simp

theorem Port.probeLaw_goNeutral (q : Port) : q.goNeutral.probeLaw := by
  simp [Port.probeLaw, Port.goNeutral]

theorem Port.probeLaw_switchOff (q : Port) : q.switchOff.probeLaw := by
  simp [Port.probeLaw, Port.switchOff]

/-- A port switched off obeys the line law in every state that is off (R2, R13, R16). -/
theorem Port.linesLaw_off (q : Port) (st : PortState) (h : st.isOn = false) :
    ({ q.switchOff with state := st } : Port).linesLaw :=
  ⟨h.symm, fun _ => ⟨rfl, rfl, rfl⟩, fun _ => ⟨fun _ e => (by cases e), fun _ e => (by cases e)⟩, fun e => (by cases e)⟩

/-- A request for a re-present keeps both laws: what it aims at is what the hub allows (R4, R10, R11). -/
theorem Port.linesLaw_requestRePresent {q : Port} (h : q.linesLaw) (target : Sig) (who : Requester) :
    (q.requestRePresent target who).linesLaw := by
  unfold Port.requestRePresent
  split
  · rename_i hon
    have off : ∀ {P : Prop}, q.switchOn = false → P := fun e => by
      rw [hon] at e
      cases e
    split
    · rename_i r hr
      have hn : q.presented = none := h.2.2.2 (by rw [hr]; rfl)
      refine ⟨h.1, fun e => off e, fun hh => ⟨fun c hc => ?_, fun r' hr' => ?_⟩, fun _ => hn⟩
      · rw [show q.presented = some c from hc] at hn
        cases hn
      · cases hr'
        exact q.turned_not_chargeOnly target hh
    · refine ⟨h.1, fun e => off e, fun hh => ⟨fun c hc => (by cases hc), fun r' hr' => ?_⟩, fun _ => rfl⟩
      cases hr'
      exact q.turned_not_chargeOnly target hh
  · exact h

theorem Port.probeLaw_requestRePresent {q : Port} (h : q.probeLaw) (target : Sig) (who : Requester) :
    (q.requestRePresent target who).probeLaw := by
  unfold Port.requestRePresent
  split
  · split
    · exact Port.probeLaw_congr h rfl rfl rfl
    · exact Port.probeLaw_congr q.probeLaw_goNeutral rfl rfl rfl
  · exact h

/-- HENn rising at the lines leaves nothing charge-only presented or targeted (R4, R5). -/
theorem Port.hubLines_clears (q : Port) (hl : q.rePresent.isSome = true → q.presented = none) :
    (∀ c, q.hubLines.presented = some c → c.chargeOnly = false)
      ∧ ∀ r, q.hubLines.rePresent = some r → r.target.chargeOnly = false := by
  unfold Port.hubLines Port.hubTakes
  cases hr : q.rePresent with
  | some r =>
    have hn : q.presented = none := hl (by rw [hr]; rfl)
    dsimp only
    split
    · refine ⟨fun c hc => ?_, fun r' h' => ?_⟩
      · rw [show q.presented = some c from hc] at hn
        cases hn
      · cases h'
        rfl
    · rename_i ht
      refine ⟨fun c hc => ?_, fun r' h' => ?_⟩
      · rw [hn] at hc
        cases hc
      · rw [hr] at h'
        cases h'
        simpa using ht
  | none =>
    dsimp only
    split
    · refine ⟨fun c hc => (by cases hc), fun r' h' => ?_⟩
      cases h'
      rfl
    · rename_i ht
      refine ⟨fun c hc => ?_, fun r' h' => ?_⟩
      · rw [hc] at ht
        simpa using ht
      · rw [hr] at h'
        cases h'

/-! ### From one port to all -/

/-- A property of each port carried to a state in which one port unit was replaced. -/
theorem State.forall_setPort {P : Port → Prop} {s : State} (p : PortId) (q : Port) (h : ∀ r, P (s.port r)) (hq : P q)
    (r : PortId) : P ((s.setPort p q).port r) := by
  by_cases e : r = p
  · rw [e, State.port_setPort_same]
    exact hq
  · rw [State.port_setPort_ne _ _ _ _ e]
    exact h r

/-- The same for a port unit changed. -/
theorem State.forall_modPort {P : Port → Prop} {s : State} (p : PortId) (f : Port → Port) (h : ∀ r, P (s.port r))
    (hf : P (f (s.port p))) (r : PortId) : P ((s.modPort p f).port r) :=
  State.forall_setPort p _ h hf r

end Sys2Proof.Machine
end

