-- ==== Sys2Proof/Laws/Memory.lean ====
section
/-! SUPPORT. What each operation of the Profile Memory does to a slot, and that it keeps the law of the memory: the recency
list holds exactly the non-vacant slots, once each; no key is held twice; no count exceeds 15 (R71, R72, R80 to R83). -/

namespace Sys2Proof.Machine

/-! ### Slots -/

theorem ProfileMemory.entry_setSlot (m : ProfileMemory) (n k : SlotId) (e : Option Entry) :
    (m.setSlot n e).entry k = if k = n then e else m.entry k := by
  simp only [ProfileMemory.entry, ProfileMemory.setSlot, Vector.getElem_set, Fin.ext_iff, eq_comm]

@[simp] theorem ProfileMemory.entry_setSlot_same (m : ProfileMemory) (n : SlotId) (e : Option Entry) :
    (m.setSlot n e).entry n = e := by
  simp [ProfileMemory.entry_setSlot]

theorem ProfileMemory.entry_setSlot_ne (m : ProfileMemory) (n k : SlotId) (e : Option Entry) (h : k ≠ n) :
    (m.setSlot n e).entry k = m.entry k := by
  simp [ProfileMemory.entry_setSlot, h]

@[simp] theorem ProfileMemory.entry_modEntry_same (m : ProfileMemory) (n : SlotId) (f : Entry → Entry) :
    (m.modEntry n f).entry n = (m.entry n).map f := ProfileMemory.entry_setSlot_same _ _ _

theorem ProfileMemory.entry_modEntry_ne (m : ProfileMemory) (n k : SlotId) (f : Entry → Entry) (h : k ≠ n) :
    (m.modEntry n f).entry k = m.entry k := ProfileMemory.entry_setSlot_ne _ _ _ _ h

@[simp] theorem ProfileMemory.recency_modEntry (m : ProfileMemory) (n : SlotId) (f : Entry → Entry) :
    (m.modEntry n f).recency = m.recency := rfl

@[simp] theorem ProfileMemory.entry_setRecency (m : ProfileMemory) (l : List SlotId) (n : SlotId) :
    (m.setRecency l).entry n = m.entry n := rfl

@[simp] theorem ProfileMemory.recency_setRecency (m : ProfileMemory) (l : List SlotId) : (m.setRecency l).recency = l := rfl

/-- A move to the front changes no slot (R81). -/
@[simp] theorem ProfileMemory.entry_toFront (m : ProfileMemory) (n k : SlotId) : (m.toFront n).entry k = m.entry k := by
  unfold ProfileMemory.toFront
  dsimp only
  split <;> rfl

/-- The entry moved stands first, the others behind it in the order they had (R81). -/
@[simp] theorem ProfileMemory.recency_toFront (m : ProfileMemory) (n : SlotId) :
    (m.toFront n).recency = n :: m.recency.filter (· ≠ n) := by
  unfold ProfileMemory.toFront
  dsimp only
  split
  · rename_i h
    exact h.symm
  · rfl

/-- The order count goes up by one exactly when the list changes (R82). -/
theorem ProfileMemory.orderCount_toFront (m : ProfileMemory) (n : SlotId) :
    (m.toFront n).orderCount = if (m.toFront n).recency = m.recency then m.orderCount else m.orderCount + 1 := by
  rw [ProfileMemory.recency_toFront]
  unfold ProfileMemory.toFront
  dsimp only
  split <;> rfl

/-! ### Lookup -/

/-- A slot that the lookup finds holds the key. -/
theorem ProfileMemory.find_some {m : ProfileMemory} {v d : Half} {n : SlotId} (h : m.find v d = some n) :
    ∃ e, m.entry n = some e ∧ e.vendor = v ∧ e.product = d := by
  have h' := List.find?_some h
  cases he : m.entry n with
  | none => simp [he] at h'
  | some e =>
    rw [he] at h'
    simp only [Option.any_some, Entry.hasKey, Bool.and_eq_true, beq_iff_eq] at h'
    exact ⟨e, rfl, h'.1, h'.2⟩

/-- When the lookup finds nothing, no slot holds the key. -/
theorem ProfileMemory.find_none {m : ProfileMemory} {v d : Half} (h : m.find v d = none) (n : SlotId) (e : Entry)
    (he : m.entry n = some e) : ¬(e.vendor = v ∧ e.product = d) := by
  have h' := (List.find?_eq_none.mp h) n (List.mem_finRange n)
  rw [he] at h'
  simpa [Entry.hasKey] using h'

/-- The lookup finds the slot that holds the key, the only one (R71). -/
theorem ProfileMemory.find_eq {m : ProfileMemory} (hm : m.law) {n : SlotId} {e : Entry} (he : m.entry n = some e) :
    m.find e.vendor e.product = some n := by
  cases hf : m.find e.vendor e.product with
  | none => exact absurd ⟨rfl, rfl⟩ (ProfileMemory.find_none hf n e he)
  | some k =>
    obtain ⟨f, hk, hv, hd⟩ := ProfileMemory.find_some hf
    rw [hm.2.2.1 k n f e hk he hv hd]

/-- The vacant slot found is vacant, and every lower one is taken (R83). -/
theorem ProfileMemory.vacant_some {m : ProfileMemory} {n : SlotId} (h : m.vacant = some n) : m.entry n = none := by
  have h' := List.find?_some h
  simpa using h'

/-- An entry that an eviction takes stands in the list and is neither pinned nor in use (R84). -/
theorem ProfileMemory.evictable_some {m : ProfileMemory} {n : SlotId} (h : m.evictable = some n) :
    n ∈ m.recency ∧ ∃ e, m.entry n = some e ∧ e.pinned = none ∧ e.users = 0 := by
  have h' := List.find?_some h
  refine ⟨List.mem_reverse.mp (List.mem_of_find?_eq_some h), ?_⟩
  cases he : m.entry n with
  | none => simp [he] at h'
  | some e =>
    rw [he] at h'
    simp only [Option.any_some, Bool.and_eq_true, Option.isNone_iff_eq_none, beq_iff_eq] at h'
    exact ⟨e, rfl, h'.1, h'.2⟩

/-! ### The law -/

/-- A list with its first slot moved to the front holds the same slots. -/
theorem mem_front {l : List SlotId} {n : SlotId} (k : SlotId) : k ∈ n :: l.filter (· ≠ n) ↔ k = n ∨ k ∈ l := by
  simp only [List.mem_cons, List.mem_filter, decide_eq_true_eq]
  constructor
  · rintro (h | ⟨h, _⟩)
    · exact Or.inl h
    · exact Or.inr h
  · rintro (h | h)
    · exact Or.inl h
    · by_cases e : k = n
      · exact Or.inl e
      · exact Or.inr ⟨h, e⟩

theorem nodup_front {l : List SlotId} (n : SlotId) (h : l.Nodup) : (n :: l.filter (· ≠ n)).Nodup :=
  List.nodup_cons.mpr ⟨by simp, h.filter _⟩

theorem nodup_tail {l : List SlotId} (n : SlotId) (h : l.Nodup) : (l.filter (· ≠ n) ++ [n]).Nodup := by
  rw [List.nodup_append]
  refine ⟨h.filter _, List.nodup_singleton n, ?_⟩
  intro a ha b hb
  simp only [List.mem_filter, decide_eq_true_eq] at ha
  rw [List.mem_singleton.mp hb]
  exact ha.2

/-- A move of a taken slot to the front keeps the law. -/
theorem ProfileMemory.law_toFront {m : ProfileMemory} (h : m.law) (n : SlotId) (hn : (m.entry n).isSome = true) :
    (m.toFront n).law := by
  obtain ⟨a, b, c, d⟩ := h
  refine ⟨?_, ?_, ?_, ?_⟩
  · rw [ProfileMemory.recency_toFront]
    exact nodup_front n a
  · intro k
    rw [ProfileMemory.recency_toFront, mem_front, ProfileMemory.entry_toFront]
    constructor
    · rintro (e | e)
      · rw [e]
        exact hn
      · exact (b k).mp e
    · intro e
      exact Or.inr ((b k).mpr e)
  · intro i j e f hi hj
    rw [ProfileMemory.entry_toFront] at hi hj
    exact c i j e f hi hj
  · intro i e hi
    rw [ProfileMemory.entry_toFront] at hi
    exact d i e hi

/-- A change of one entry that keeps its key and its counts within 15 keeps the law. -/
theorem ProfileMemory.law_modEntry {m : ProfileMemory} (h : m.law) (n : SlotId) (f : Entry → Entry)
    (hk : ∀ e, (f e).vendor = e.vendor ∧ (f e).product = e.product)
    (hv : ∀ e, e.tallies.valid = true → (f e).tallies.valid = true) : (m.modEntry n f).law := by
  obtain ⟨a, b, c, d⟩ := h
  have key : ∀ k e, (m.modEntry n f).entry k = some e →
      ∃ o, m.entry k = some o ∧ e.vendor = o.vendor ∧ e.product = o.product
        ∧ (o.tallies.valid = true → e.tallies.valid = true) := by
    intro k e he
    by_cases hkn : k = n
    · subst hkn
      rw [ProfileMemory.entry_modEntry_same] at he
      cases ho : m.entry k with
      | none => simp [ho] at he
      | some o =>
        rw [ho] at he
        simp only [Option.map_some, Option.some.injEq] at he
        subst he
        exact ⟨o, rfl, (hk o).1, (hk o).2, hv o⟩
    · rw [ProfileMemory.entry_modEntry_ne _ _ _ _ hkn] at he
      exact ⟨e, he, rfl, rfl, id⟩
  refine ⟨a, ?_, ?_, ?_⟩
  · intro k
    rw [ProfileMemory.recency_modEntry, b k]
    by_cases hkn : k = n
    · subst hkn
      simp
    · rw [ProfileMemory.entry_modEntry_ne _ _ _ _ hkn]
  · intro i j e g hi hj v w
    obtain ⟨o, ho, x1, x2, _⟩ := key i e hi
    obtain ⟨q, hq, y1, y2, _⟩ := key j g hj
    exact c i j o q ho hq (x1 ▸ y1 ▸ v) (x2 ▸ y2 ▸ w)
  · intro i e hi
    obtain ⟨o, ho, _, _, hval⟩ := key i e hi
    exact hval (d i o ho)

/-- A slot filled with a key that no other slot holds keeps the law, wherever in the list it goes. -/
theorem ProfileMemory.law_insert {m : ProfileMemory} (h : m.law) (n : SlotId) (e : Entry) (l : List SlotId)
    (hv : e.tallies.valid = true)
    (hkey : ∀ k f, k ≠ n → m.entry k = some f → ¬(f.vendor = e.vendor ∧ f.product = e.product))
    (hl : l.Nodup) (hm : ∀ k, k ∈ l ↔ k = n ∨ k ∈ m.recency) : ((m.setSlot n (some e)).setRecency l).law := by
  obtain ⟨_, b, c, d⟩ := h
  refine ⟨hl, ?_, ?_, ?_⟩
  · intro k
    rw [ProfileMemory.recency_setRecency, hm k, ProfileMemory.entry_setRecency, ProfileMemory.entry_setSlot]
    by_cases hk : k = n
    · simp [hk]
    · simp [hk, b k]
  · intro i j x y hi hj v w
    rw [ProfileMemory.entry_setRecency, ProfileMemory.entry_setSlot] at hi hj
    by_cases hin : i = n <;> by_cases hjn : j = n
    · rw [hin, hjn]
    · simp only [hin, if_true, Option.some.injEq] at hi
      simp only [hjn, if_false] at hj
      subst hi
      exact absurd ⟨v.symm, w.symm⟩ (hkey j y hjn hj)
    · simp only [hjn, if_true, Option.some.injEq] at hj
      simp only [hin, if_false] at hi
      subst hj
      exact absurd ⟨v, w⟩ (hkey i x hin hi)
    · simp only [hin, if_false] at hi
      simp only [hjn, if_false] at hj
      exact c i j x y hi hj v w
  · intro i x hi
    rw [ProfileMemory.entry_setRecency, ProfileMemory.entry_setSlot] at hi
    by_cases hin : i = n
    · simp only [hin, if_true, Option.some.injEq] at hi
      subst hi
      exact hv
    · simp only [hin, if_false] at hi
      exact d i x hi

theorem ProfileMemory.law_insertFront {m : ProfileMemory} (h : m.law) (n : SlotId) (e : Entry)
    (hv : e.tallies.valid = true)
    (hkey : ∀ k f, k ≠ n → m.entry k = some f → ¬(f.vendor = e.vendor ∧ f.product = e.product)) :
    (m.insertFront n e).law :=
  ProfileMemory.law_insert h n e _ hv hkey (nodup_front n h.1) fun k => mem_front k

theorem ProfileMemory.law_insertTail {m : ProfileMemory} (h : m.law) (n : SlotId) (e : Entry)
    (hv : e.tallies.valid = true)
    (hkey : ∀ k f, k ≠ n → m.entry k = some f → ¬(f.vendor = e.vendor ∧ f.product = e.product)) :
    (m.insertTail n e).law :=
  ProfileMemory.law_insert h n e _ hv hkey (nodup_tail n h.1) fun k => by
    rw [← mem_front (l := m.recency) (n := n) k]
    simp only [List.mem_append, List.mem_cons, List.not_mem_nil, or_false]
    exact or_comm

/-- A slot vacated keeps the law. -/
theorem ProfileMemory.law_vacate {m : ProfileMemory} (h : m.law) (n : SlotId) : (m.vacate n).law := by
  obtain ⟨a, b, c, d⟩ := h
  have key : ∀ k e, (m.vacate n).entry k = some e → m.entry k = some e := by
    intro k e he
    have he' : (m.setSlot n none).entry k = some e := he
    rw [ProfileMemory.entry_setSlot] at he'
    split at he'
    · exact absurd he' (by simp)
    · exact he'
  refine ⟨a.filter _, ?_, fun i j e f hi hj => c i j e f (key i e hi) (key j f hj), fun i e hi => d i e (key i e hi)⟩
  intro k
  change k ∈ m.recency.filter (· ≠ n) ↔ ((m.setSlot n none).entry k).isSome = true
  rw [ProfileMemory.entry_setSlot]
  by_cases hk : k = n
  · simp [hk]
  · simp [hk, b k]

/-! ### Folding -/

/-- A fold keeps counts within 15 (R72, R77). -/
theorem Tally.valid_fold (t : Tally) (b : Bool) (h : t.valid = true) : (t.fold b).valid = true := by
  simp only [Tally.valid, Bool.and_eq_true, decide_eq_true_eq] at h
  obtain ⟨h1, h2⟩ := h
  unfold Tally.fold
  (repeat' split) <;> simp only [Tally.valid, Bool.and_eq_true, decide_eq_true_eq] <;> omega

theorem Tallies.valid_modify (t : Tallies) (b : Bool) (g : Sig) (h : t.valid = true) :
    (t.modify (Tally.fold b) g).valid = true := by
  simp only [Tallies.valid, Bool.and_eq_true] at h
  obtain ⟨⟨⟨⟨hl, ha⟩, hb⟩, hh⟩, hf⟩ := h
  cases g <;> simp [Tallies.modify, Tallies.valid, Tally.valid_fold, hl, ha, hb, hh, hf]

theorem Tally.valid_halve (t : Tally) (h : t.valid = true) : t.halve.valid = true := by
  simp only [Tally.valid, Bool.and_eq_true, decide_eq_true_eq] at h
  unfold Tally.halve Tally.valid
  simp only [Bool.and_eq_true, decide_eq_true_eq]
  omega

theorem Tallies.valid_halve (t : Tallies) (h : t.valid = true) : t.halve.valid = true := by
  simp only [Tallies.valid, Bool.and_eq_true] at h
  obtain ⟨⟨⟨⟨hl, ha⟩, hb⟩, hh⟩, hf⟩ := h
  simp [Tallies.halve, Tallies.valid, Tally.valid_halve, hl, ha, hb, hh, hf]

/-- A fold keeps the law of the memory (R77). -/
theorem ProfileMemory.law_fold {m : ProfileMemory} (h : m.law) (n : SlotId) (g : Sig) (b : Bool) : (m.fold n g b).law := by
  unfold ProfileMemory.fold
  split
  · rename_i hn
    refine ProfileMemory.law_toFront (ProfileMemory.law_modEntry h n _ (fun _ => ?_) fun e he => ?_) n ?_
    · exact ⟨rfl, rfl⟩
    · exact Tallies.valid_modify _ _ _ he
    · simpa using hn
  · exact h

/-- A release change keeps key and counts within bounds (R79). -/
theorem Entry.releaseChange_keeps (release : Half) (e : Entry) :
    ((e.releaseChange release).vendor = e.vendor ∧ (e.releaseChange release).product = e.product)
      ∧ (e.tallies.valid = true → (e.releaseChange release).tallies.valid = true) := by
  unfold Entry.releaseChange
  split
  · exact ⟨⟨rfl, rfl⟩, id⟩
  · exact ⟨⟨rfl, rfl⟩, Tallies.valid_halve _⟩

/-- A bind request keeps the law of the memory (R86, R87). -/
theorem MemoryLaw.bindRequest {s : State} (h : MemoryLaw s) (v d r : Half) : MemoryLaw (s.bindRequest v d r) := by
  unfold State.bindRequest
  split
  · rename_i n hf
    obtain ⟨e, he, _⟩ := ProfileMemory.find_some hf
    refine ProfileMemory.law_toFront (ProfileMemory.law_modEntry h n _ (fun e => ?_) fun e hv => ?_) n ?_
    · exact (Entry.releaseChange_keeps r e).1
    · exact (Entry.releaseChange_keeps r e).2 hv
    · simp [he]
  · rename_i hf
    have hkey : ∀ n k f, k ≠ n → s.memory.entry k = some f →
        ¬(f.vendor = (Entry.fresh v d r).vendor ∧ f.product = (Entry.fresh v d r).product) :=
      fun _ k f _ hk => ProfileMemory.find_none hf k f hk
    split
    · rename_i n _
      exact ProfileMemory.law_insertFront h n _ rfl (hkey n)
    · rename_i n _
      exact ProfileMemory.law_insertFront h n _ rfl (hkey n)
    · exact h

end Sys2Proof.Machine
end

