-- ==== Sys2Proof/Laws/Notices.lean ====
section
/-! SUPPORT. What a raise, an acknowledge and a new mask do to the notice unit (R175 to R184). -/

namespace Sys2Proof.Machine

/-- ALERT# follows every change of the unit (R179). -/
theorem Notices.alert_raise (n : Notices) (g : GroupId) (k : Kind) :
    (n.raise g k).alertLow = (n.raise g k).unmaskedPending := rfl

theorem Notices.alert_clear (n : Notices) (g : GroupId) (kinds : Half) :
    (n.clear g kinds).alertLow = (n.clear g kinds).unmaskedPending := rfl

theorem Notices.alert_setMask (n : Notices) (kinds : Half) :
    (n.setMask kinds).alertLow = (n.setMask kinds).unmaskedPending := rfl

/-- An acknowledge touches the pending set of its own group only (R182). -/
theorem State.group_clearNotices (s : State) (g h : GroupId) (kinds : Half) :
    (s.clearNotices g kinds).group h
      = if h = g then { pending := (s.group g).pending &&& ~~~kinds, epoch := (s.group g).epoch } else s.group h := by
  simp only [State.group, State.clearNotices, Notices.clear, Notices.alertUpdate, Notices.setGroup, Vector.getElem_set,
    Fin.ext_iff, eq_comm]

/-- ALERT# is driven low exactly when some group holds an unmasked pending kind (R179). -/
theorem Notices.unmaskedPending_iff (n : Notices) :
    n.unmaskedPending = true ↔ ∃ g : GroupId, n.groups[g.val].pending &&& ~~~n.mask ≠ 0 := by
  simp only [Notices.unmaskedPending, Vector.any_eq_true, bne_iff_ne, ne_eq]
  constructor
  · rintro ⟨i, hi, h⟩
    exact ⟨⟨i, hi⟩, h⟩
  · rintro ⟨g, h⟩
    exact ⟨g.val, g.isLt, h⟩

/-- A kind of a group's class joins the set, and the set stays within its class. -/
theorem within_or (a m c : Half) (ha : a &&& ~~~c = 0) (hm : m &&& ~~~c = 0) : (a ||| m) &&& ~~~c = 0 := by
  have e : (a ||| m) &&& ~~~c = (a &&& ~~~c) ||| (m &&& ~~~c) := by
    ext i hi
    simp [Bool.and_or_distrib_right]
  rw [e, ha, hm]
  rfl

/-- A raise of a kind of the group's class keeps the notice law (R176, R177, R179). -/
theorem NoticeLaw.raise {s : State} (h : NoticeLaw s) (g : GroupId) (k : Kind) (hk : k.mask &&& ~~~groupKinds g = 0) :
    NoticeLaw (s.raise g k) := by
  refine ⟨rfl, fun i => ?_, h.2.2⟩
  rw [State.group_raise]
  split
  · rename_i e
    subst e
    exact within_or _ _ _ (h.2.1 i) hk
  · exact h.2.1 i

/-- The kinds of the port groups. -/
theorem NoticeLaw.raisePort {s : State} (h : NoticeLaw s) (p : PortId) (k : Kind) (hk : k.mask &&& ~~~portKinds = 0) :
    NoticeLaw (s.raisePort p k) := by
  refine h.raise _ _ ?_
  have hp : groupKinds (portGroup p) = portKinds := by
    unfold groupKinds
    have := p.isLt
    rw [if_neg]
    simp [portGroup]
    omega
  rw [hp]
  exact hk

/-- The kinds of the device group. -/
theorem NoticeLaw.raiseDevice {s : State} (h : NoticeLaw s) (k : Kind) (hk : k.mask &&& ~~~deviceKinds = 0) :
    NoticeLaw (s.raiseDevice k) :=
  h.raise _ _ hk

end Sys2Proof.Machine
end

