-- ==== Sys2Proof/WellFormed.lean ====
section
/-! DEFINITION. The commands that can come about. The part judges the parameters of a host command itself (R201), so every
host command is well formed; a reading and a failed frame are limited by what sends them. -/

namespace Sys2Proof

/-- A reading is a multiple of 10 mA (R141). -/
def readingOnGrid (reading : Nat) : Bool := reading % 10 == 0

/-- A reading lies between 0 and 4000 mA (R141). -/
def readingInRange (reading : Nat) : Bool := reading ≤ 4000

/-- A frame carries at least one byte after the address (R190). -/
def frameNonempty (bytes : List Byte) : Bool := !bytes.isEmpty

/-- A frame fails one of the checks of R191. -/
def frameFails (bytes : List Byte) : Bool :=
  match decodeFrame bytes with
  | .ok _ => false
  | .error _ => true

/-- The well-formed commands. -/
def Instr.wellFormed : Instr → Bool
  | .currentReading _ r => readingOnGrid r && readingInRange r
  | .failedFrame bs => frameNonempty bs && frameFails bs
  | _ => true

end Sys2Proof
end

