-- ==== Sys2Proof/Tests/Slice0.lean ====
section
/-! SUPPORT. Tests: ill-formed commands refused, frames written out from the spec, single steps on small states, and for every
statement with hypotheses states and operands that meet them, clause by clause. -/

namespace Sys2Proof.Tests

open Sys2Proof Sys2Proof.Machine

-- One test after another: in parallel the kernel evaluations ask for more threads than the sandbox has room for.
set_option Elab.async false

/-! ### Well-formedness -/

theorem test_reading_off_grid_refused : Instr.wellFormed (.currentReading 0 15) = false := by decide +kernel
theorem test_reading_above_range_refused : Instr.wellFormed (.currentReading 0 4010) = false := by decide +kernel
theorem test_reading_at_range_end : Instr.wellFormed (.currentReading 0 4000) = true := by decide +kernel
theorem test_empty_failed_frame_refused : Instr.wellFormed (.failedFrame []) = false := by decide +kernel
theorem test_passing_failed_frame_refused : Instr.wellFormed (.failedFrame [0x01, 0x05, 0x00, 0x2A]) = false := by decide +kernel
theorem test_bad_crc_failed_frame : Instr.wellFormed (.failedFrame [0x01, 0x05, 0x00, 0x2B]) = true := by decide +kernel

/-! ### Frames (R192 and its example) -/

theorem test_crc_of_nine_digits : crc8 [0x31, 0x32, 0x33, 0x34, 0x35, 0x36, 0x37, 0x38, 0x39] = 0xF4 := by decide +kernel
theorem test_get_globals_frame : decodeFrame [0x01, 0x05, 0x00, 0x2A] = .ok (.getGlobals 0x01) := by decide +kernel
theorem test_get_globals_response :
    Response.bytes ⟨.ok, 0x01, 0x05, [3, 5]⟩ = [0x00, 0x01, 0x05, 0x02, 0x03, 0x05, 0xDE] := by decide +kernel
theorem test_short_frame : decodeFrame [0x01, 0x05] = .error .frameShort := by decide +kernel
theorem test_long_length : decodeFrame [0x01, 0x05, 0x21] = .error .badLength := by decide +kernel
theorem test_unknown_code : decodeFrame [0x01, 0x07, 0x00, crc8 [0x01, 0x07, 0x00]] = .error .badCode := by decide +kernel
theorem test_wrong_length :
    decodeFrame [0x01, 0x05, 0x01, 0x00, crc8 [0x01, 0x05, 0x01, 0x00]] = .error .badLength := by decide +kernel

/-! ### Small states: port 0 in some state, the other ports DISABLED -/

def quiet : Pins := ⟨false, false, false, false⟩

/-- A state with port 0 given and its grant. -/
def small (q : Port) (grant : Nat) : State := (State.reset.setPort 0 q).setGrant 0 grant

/-- A port unit in a state, presenting a condition, with a session if any. -/
def unit (st : PortState) (c : Option Sig) (x : Option Session) : Port :=
  { Port.reset quiet with
    state := st, switchOn := st.isOn, presented := c, session := x, policy := { Policy.reset with enabled := true } }

/-- A fixed port unit. -/
def fixedUnit (st : PortState) (c : Option Sig) (x : Option Session) : Port := { unit st c x with fixed := true }

/-- A session in a phase, or held in one. -/
def sess (phase held : Option Phase) (c : Option Sig) : Session :=
  { (unit .idle c none).newSession with phase := phase, held := held }

@[simp] theorem small_same (q : Port) (g : Nat) : (small q g).port 0 = q := State.port_setPort_same _ _ _

theorem small_ne (q : Port) (g : Nat) (r : PortId) (h : r ≠ 0) : (small q g).port r = Port.reset quiet := by
  have e : (small q g).port r = State.reset.port r := State.port_setPort_ne _ _ _ _ h
  have f : ∀ r, State.reset.port r = Port.reset quiet := by decide
  rw [e, f]

@[simp] theorem small_grant (q : Port) (g : Nat) : (small q g).grant 0 = g := State.grant_setGrant_same _ _ _

theorem small_grant_ne (q : Port) (g : Nat) (r : PortId) (h : r ≠ 0) : (small q g).grant r = 0 := by
  have e : (small q g).grant r = State.reset.grant r := State.grant_setGrant_ne _ _ _ _ h
  have f : ∀ r, State.reset.grant r = 0 := by decide
  rw [e, f]

theorem lines_small {q : Port} (g : Nat) (h : q.linesLaw) : LinesLaw (small q g) := by
  refine ⟨fun p => ?_, fun e => by cases e⟩
  by_cases e : p = 0
  · rw [e, small_same]
    exact h
  · rw [small_ne _ _ _ e]
    simp [Port.linesLaw, Port.reset, PortState.isOn, quiet]

theorem probe_small {q : Port} (g : Nat) (h : q.probeLaw) : ProbeLaw (small q g) := by
  intro p
  by_cases e : p = 0
  · rw [e, small_same]
    exact h
  · rw [small_ne _ _ _ e]
    simp [Port.probeLaw, Port.reset, Timers.stopped]

theorem session_small {q : Port} (g : Nat) (h : q.sessionLaw) : SessionLaw (small q g) := by
  intro p
  by_cases e : p = 0
  · rw [e, small_same]
    exact h
  · rw [small_ne _ _ _ e]
    simp [Port.sessionLaw, Port.reset]

theorem cover_small {q : Port} {g : Nat} (h : q.coverLaw g) : CoverLaw (small q g) := by
  intro p
  by_cases e : p = 0
  · rw [e, small_same, small_grant]
    exact h
  · rw [small_ne _ _ _ e]
    simp [Port.coverLaw, Port.reset]

theorem exact_small {q : Port} {g : Nat} (h : q.exactLaw g) : ExactLaw (small q g) := by
  intro p
  by_cases e : p = 0
  · rw [e, small_same, small_grant]
    exact h
  · rw [small_ne _ _ _ e]
    simp [Port.exactLaw, Port.reset]

theorem need_small (q : Port) (g : Nat) : NeedLaw (small q g) := fun _ h => absurd h List.not_mem_nil

theorem policy_reset_inRange (b : Bool) : ({ Policy.reset with enabled := b } : Policy).inRange := by
  cases b <;>
    exact ⟨by decide, by decide, by decide, by decide, by decide, by decide, by decide, by decide, by decide, by decide⟩

theorem policy_small {q : Port} (g : Nat) (h : q.policy.inRange)
    (he : q.policy.enabled = true ↔ q.state ≠ .disabled) : PolicyLaw (small q g) := by
  refine ⟨fun p => ?_, (by decide : 2 ≤ 3 ∧ 3 ≤ 7), (by decide : 1 ≤ 5 ∧ 5 ≤ 15)⟩
  by_cases e : p = 0
  · rw [e, small_same]
    exact ⟨h, he⟩
  · rw [small_ne _ _ _ e]
    exact ⟨policy_reset_inRange false, by decide⟩

theorem memory_reset : ProfileMemory.reset.law := by
  have hn : ∀ n : SlotId, ProfileMemory.reset.entry n = none := by decide +kernel
  refine ⟨List.nodup_nil, fun n => ?_, fun n k e f he => ?_, fun n e he => ?_⟩
  · rw [hn n]
    simp [ProfileMemory.reset]
  · rw [hn n] at he
    cases he
  · rw [hn n] at he
    cases he

theorem queue_small {q : Port} (g : Nat) (h : ∀ x, q.session = some x → x.phase ≠ some .waitingBudget) :
    QueueLaw (small q g) := by
  refine ⟨List.nodup_nil, fun p => ?_⟩
  have hq : (small q g).queued p = false := rfl
  rw [hq]
  simp only [Bool.false_eq_true, false_iff, State.phase]
  by_cases e : p = 0
  · rw [e, small_same]
    cases hx : q.session with
    | none => simp
    | some x => simpa using h x hx
  · rw [small_ne _ _ _ e]
    simp [Port.reset]

/-- The laws of the lines hold of a port that presents P while its switch is on. -/
theorem lines_unit (st : PortState) (x : Option Session) : (unit st (if st.isOn then some .P else none) x).linesLaw := by
  cases st <;> simp [Port.linesLaw, unit, Port.reset, PortState.isOn, quiet]

/-- A step that a state takes, read as the state it leads to; the state itself where it stops. -/
def after (s : State) : Host.Outcome State Fault Refusal → State
  | .next t => t
  | .fault _ => s
  | .refused _ => s

/-! ### Steps -/

def occupied : State := small (unit .occupied (some .P) (some (sess (some .settling) none (some .P)))) 500

theorem test_idle_step : after { State.reset with freeCount := 1 } (step State.reset) = State.reset := by decide +kernel
theorem test_front_command_runs :
    (after State.reset (step { State.reset with pending := [.getInfo 7] })).host.response.map (·.data)
      = some [0x08, 0x40, 0x44, 0x01, 8, 48, 8, 32, 40, 0x5C] := by decide +kernel
theorem test_enable_port :
    ((after State.reset (exec (.enablePort 1 0) State.reset)).port 0).state = .powering := by decide +kernel
theorem test_attach_in_idle :
    ((after State.reset (exec (.attnRising 0) (small (unit .idle (some .P) none) 500))).phase 0) = some .settling := by
  decide +kernel
theorem test_detach_holds :
    ((after State.reset (exec (.attnFalling 0) occupied)).heldPhase 0) = some .settling := by decide +kernel
theorem test_trip :
    ((after State.reset (exec (.currentReading 0 640)
      (small { unit .idle (some .P) none with overcurrent := true } 500))).port 0).state = .fault := by decide +kernel
theorem test_no_trip_at_the_level :
    ((after State.reset (exec (.currentReading 0 620)
      (small { unit .idle (some .P) none with overcurrent := true } 500))).port 0).state = .idle := by decide +kernel
theorem test_expiry_without_timer : exec (.settleExpiry 0) State.reset = .next State.reset := by rfl
theorem test_address_byte :
    (after State.reset (exec (.addressByteReceived 0xB8) State.reset)).host.bus = .write := by decide +kernel
theorem test_other_address :
    (after State.reset (exec (.addressByteReceived 0xBA) State.reset)).host.ack = false := by decide +kernel

/-- A re-present inherited by a port that waits for budget: after its end the target is the awaited signature (R43). -/
theorem test_target_while_waiting :
    ((after State.reset (exec (.rePresentTimerExpiry 0)
        ((small { unit .occupied none (some { sess (some .waitingBudget) none none with
            target := some .F, current := some ⟨.F, .evaluate⟩ }) with
          rePresent := some ⟨.P, 0, false, .resumption, none⟩ } 500).setQueue [⟨0, .F, 1000⟩]))).port 0).session.map
      (fun x => (x.phase, x.target, x.current)) = some (some .waitingBudget, some .F, some ⟨.F, .evaluate⟩) := by
  decide +kernel

/-- A read sends the response slot byte by byte, FFh beyond it, and nothing after a byte not acknowledged (R195). -/
theorem test_read_bytes :
    let t := after State.reset (exec (.addressByteReceived 0xB9) State.reset)
    t.sent [] = some 0x7F ∧ t.sent [true, true, true, true] = some (crc8 [0x7F, 0, 0, 0])
      ∧ t.sent [true, true, true, true, true] = some 0xFF ∧ t.sent [true, false] = none ∧ State.reset.sent [] = none := by
  decide +kernel

/-! ### The premises of the statements, met

Each theorem names the statement whose premises it shows met; clause by clause where the statement has clauses. -/

theorem witness_running : State.reset.host.inReset = false := by decide

theorem witness_StepTakesTheFrontCommand :
    ({ State.reset with pending := [.getInfo 7] } : State).pending = [.getInfo 7]
      ∧ (State.reset.pending = [] ∧ State.reset.dueEvents = [])
      ∧ (let s := small { unit .fault none none with timers := { Timers.stopped with coolDown := some 0 } } 500
         s.pending = [] ∧ s.dueEvents = [.coolDownExpiry 0])
      ∧ (let s := small { unit .occupied (some .P) none with
           timers := { Timers.stopped with settle := some 0, link := some 0 } } 500
         s.pending = [] ∧ 2 ≤ s.dueEvents.length) := by
  decide +kernel

theorem witness_GetDeviceStatus_queue : ∃ s : State, s.host.inReset = false ∧ s.budget.queue.head?.isSome = true :=
  ⟨State.reset.setQueue [⟨7, .F, 3000⟩], by decide⟩

theorem test_second_queue_entry :
    (State.reset.setQueue [⟨7, .F, 3000⟩, ⟨2, .L, 21⟩]).deviceStatus.getD 13 0 = 0x22
      ∧ (State.reset.setQueue [⟨7, .F, 3000⟩, ⟨2, .L, 21⟩]).deviceStatus.getD 14 0 = 2
      ∧ (State.reset.setQueue [⟨7, .F, 3000⟩, ⟨2, .L, 21⟩]).deviceStatus.getD 25 0 = 0 := by
  decide +kernel

theorem witness_SetGlobals_ranges :
    (2 ≤ (2 : Byte).toNat ∧ (2 : Byte).toNat ≤ 7 ∧ 1 ≤ (1 : Byte).toNat ∧ (1 : Byte).toNat ≤ 15)
      ∧ (2 ≤ (7 : Byte).toNat ∧ (7 : Byte).toNat ≤ 7 ∧ 1 ≤ (15 : Byte).toNat ∧ (15 : Byte).toNat ≤ 15)
      ∧ ¬(2 ≤ (1 : Byte).toNat) ∧ ¬((8 : Byte).toNat ≤ 7) ∧ ¬(1 ≤ (0 : Byte).toNat) ∧ ¬((16 : Byte).toNat ≤ 15) := by
  decide

theorem witness_GetPolicy :
    (PolicyLaw (small (Port.reset quiet) 0) ∧ (small (Port.reset quiet) 0).host.inReset = false
        ∧ ((small (Port.reset quiet) 0).port 0).session = none)
      ∧ (PolicyLaw occupied ∧ occupied.host.inReset = false
        ∧ (occupied.port 0).session = some (sess (some .settling) none (some .P))) :=
  ⟨⟨policy_small 0 (policy_reset_inRange false) (by decide), rfl, rfl⟩,
    ⟨policy_small 500 (policy_reset_inRange true) (by decide), rfl, rfl⟩⟩

/-- The record of R161's reset values as a host sends it. -/
def resetRecord : PolicyBytes := ⟨0, 1, 1, 5, 6, 5, 4, 3, 2, 6, 4, 3, 0, 20, 4, 10, 3, 2⟩

theorem witness_GetPort_timers :
    (Timers.stopped.link = none ∧ Timers.stopped.coolDown = none ∧ Timers.stopped.toggleOff = none)
      ∧ (let q := { fixedUnit .occupied (some .P) none with timers := { Timers.stopped with link := some 21 } }
         q.timers.link = some 21 ∧ ((small q 500).portData 0).getD 15 0 = 1 ∧ ((small q 500).portData 0).getD 16 0 = 2)
      ∧ (let q := { unit .fault none none with timers := { Timers.stopped with coolDown := some 400 } }
         q.timers.coolDown = some 400 ∧ ((small q 500).portData 0).getD 15 0 = 2 ∧ ((small q 500).portData 0).getD 16 0 = 20)
      ∧ (let q := { unit .recovery none none with timers := { Timers.stopped with toggleOff := some 1 } }
         q.timers.toggleOff = some 1 ∧ ((small q 500).portData 0).getD 15 0 = 3
           ∧ ((small q 500).portData 0).getD 16 0 = 1) := by
  decide +kernel

/-- Every field at the end of its range that R163 names. -/
def lowRecord : PolicyBytes := ⟨0, 0, 0, 1, 2, 0xFF, 2, 0, 7, 2, 1, 1, 0, 0, 0, 0, 1, 0⟩
def highRecord : PolicyBytes := ⟨1, 1, 3, 5, 2, 3, 4, 5, 6, 6, 15, 6, 15, 0xFF, 7, 31, 7, 3⟩

/-- Records that fail one check each. -/
def failingRecords : List PolicyBytes :=
  [{ resetRecord with listLength := 6 }, { resetRecord with listLength := 0 }, { resetRecord with position2 := 6 },
    { resetRecord with position1 := 1 }, { resetRecord with maxSignature := 5 }, { resetRecord with fixedDevice := 2 },
    { resetRecord with evaluationWindow := 0 }, { resetRecord with faultRetries := 4 }]

theorem witness_SetPolicy :
    (∀ r, r ∈ [resetRecord, lowRecord, highRecord] → recordPasses r) ∧ (∀ r, r ∈ failingRecords → ¬ recordPasses r)
      ∧ (resetRecord.fixedDevice = yesNo (occupied.port 0).policy.fixedDevice ∧ (occupied.port 0).state ≠ .disabled)
      ∧ highRecord.fixedDevice ≠ yesNo (occupied.port 0).policy.fixedDevice
      ∧ (highRecord.fixedDevice ≠ yesNo (State.reset.port 0).policy.fixedDevice ∧ (State.reset.port 0).state = .disabled) := by
  refine ⟨?_, ?_, by decide +kernel⟩ <;> unfold recordPasses <;> decide +kernel

theorem witness_GetPort :
    (occupied.port 0).session = some (sess (some .settling) none (some .P))
      ∧ (sess (some .settling) none (some .P)).identity = none
      ∧ ({ sess (some .settling) none (some .P) with identity := some ⟨1, 2, 3⟩ } : Session).identity = some ⟨1, 2, 3⟩ := by
  decide +kernel

theorem witness_AckNotices :
    8 < (9 : Byte).toNat ∧ (0x0800 : Half) &&& ~~~groupKinds 7 ≠ 0 ∧ (0x0400 : Half) &&& ~~~groupKinds 8 ≠ 0
      ∧ (0x07FF : Half) &&& ~~~groupKinds 7 = 0 ∧ (0x3800 : Half) &&& ~~~groupKinds 8 = 0
      ∧ (State.reset.group 8).epoch = 0 ∧ (State.reset.group 8).epoch ≠ 1 := by
  decide

theorem witness_SetNoticeMask : (0x3FFF : Half) &&& ~~~allKinds = 0 ∧ (0x4000 : Half) &&& ~~~allKinds ≠ 0 := by decide

/-! Profile Memory states: one entry, and a full memory. -/

/-- An entry of key 0001h:0002h. -/
def entry (pinned : Option Sig) (users : Nat) : Entry :=
  { vendor := 1, product := 2, release := 3, pinned := pinned, tallies := Tallies.zero, users := users }

/-- Reset with one entry in a slot. -/
def holding (n : SlotId) (pinned : Option Sig) (users : Nat) : State :=
  State.reset.modMemory (·.insertFront n (entry pinned users))

theorem memory_holding (n : SlotId) (pinned : Option Sig) (users : Nat) : MemoryLaw (holding n pinned users) := by
  refine ProfileMemory.law_insertFront memory_reset n _ rfl fun k f _ hk => ?_
  have hn : ∀ k : SlotId, ProfileMemory.reset.entry k = none := by decide
  rw [hn k] at hk
  cases hk

theorem witness_PmLookup :
    MemoryLaw (holding 47 none 0) ∧ (holding 47 none 0).entry 47 = some (entry none 0)
      ∧ (∀ k, ((holding 47 none 0).entry k).all fun e => !(e.vendor == 1 && e.product == 3)) :=
  ⟨memory_holding _ _ _, by decide +kernel, by decide +kernel⟩

theorem witness_PmRead : 47 < (48 : Byte).toNat ∧ (holding 0 none 0).entry 47 = none
    ∧ (holding 0 none 0).entry 0 = some (entry none 0) := by decide +kernel

theorem witness_PmOrder : (1 : Byte).toNat ≤ 1 ∧ 1 < (2 : Byte).toNat := by decide

/-- A PM Write of a key, a pin code and a target code, tallies 0. -/
def writeOf (product : Half) (pin target : Byte) : ImportBytes :=
  ⟨1, product, 4, pin, 0, 0, 0, 0, 0, 0, 0, 0, 0, 15, target⟩

/-- Reset with every slot taken, each entry with these users. -/
def fullMemory (users : Nat) : ProfileMemory :=
  { ProfileMemory.reset with
    slots := Vector.ofFn fun n : SlotId => some { entry none users with product := BitVec.ofNat 16 (100 + n.val) }
    recency := List.finRange 48 }

theorem entry_full (users : Nat) (n : SlotId) :
    (fullMemory users).entry n = some { entry none users with product := BitVec.ofNat 16 (100 + n.val) } := by
  simp [fullMemory, ProfileMemory.entry]

theorem memory_full (users : Nat) : (fullMemory users).law := by
  refine ⟨List.nodup_finRange 48, fun n => ?_, fun n k e f he hf _ hp => ?_, fun n e he => ?_⟩
  · rw [entry_full]
    simp [fullMemory]
  · rw [entry_full] at he hf
    cases he
    cases hf
    have h : ∀ n k : SlotId, (BitVec.ofNat 16 (100 + n.val) = BitVec.ofNat 16 (100 + k.val)) → n = k := by
      intro n k h
      have h' := congrArg BitVec.toNat h
      simp only [BitVec.toNat_ofNat] at h'
      exact Fin.ext (by omega)
    exact h n k hp
  · rw [entry_full] at he
    cases he
    exact (by decide : Tallies.zero.valid = true)

theorem witness_PmWrite_refused :
    importEntry (writeOf 2 7 0xFF) = none ∧ targetOf (writeOf 2 0 48).target = none
      ∧ importEntry { writeOf 2 0 0xFF with fRej := 16 } = none := by
  decide +kernel

theorem witness_PmWrite_key_held :
    (importEntry (writeOf 2 6 47)).isSome = true ∧ targetOf (writeOf 2 6 47).target = some (some 47)
      ∧ MemoryLaw (holding 46 none 0) ∧ (holding 46 none 0).entry 46 = some (entry none 0)
      ∧ MemoryLaw (holding 47 none 1) ∧ (holding 47 none 1).entry 47 = some (entry none 1)
      ∧ MemoryLaw (holding 47 none 0) ∧ (holding 47 none 0).entry 47 = some (entry none 0) :=
  ⟨by decide +kernel, by decide +kernel, memory_holding _ _ _, by decide +kernel, memory_holding _ _ _, by decide +kernel,
    memory_holding _ _ _, by decide +kernel⟩

theorem witness_PmWrite_key_absent :
    (∀ n, ((holding 0 none 1).entry n).all fun e => !(e.vendor == 1 && e.product == 3))
      ∧ targetOf (writeOf 3 0 0).target = some (some 0) ∧ (holding 0 none 1).entry 0 = some (entry none 1)
      ∧ targetOf (writeOf 3 0 0xFF).target = some none ∧ (holding 0 none 1).entry 1 = none
      ∧ (∀ n : SlotId, n < 1 → ((holding 0 none 1).entry n).isSome = true) := by
  decide +kernel

theorem witness_PmWrite_full :
    (∀ n, ((fullMemory 1).entry n).isSome = true)
      ∧ (∀ n, (((fullMemory 1).entry n).any fun e => e.pinned.isNone && e.users == 0) = false)
      ∧ ((fullMemory 0).recency.reverse.find? fun n =>
          ((fullMemory 0).entry n).any fun e => e.pinned.isNone && e.users == 0) = some 47
      ∧ (∀ n, ((fullMemory 0).entry n).all fun e => !(e.vendor == 1 && e.product == 3)) := by
  decide +kernel

theorem witness_PmRetire_PmPin :
    (holding 5 none 1).entry 5 = some (entry none 1) ∧ (holding 5 (some .A) 0).entry 5 = some (entry (some .A) 0)
      ∧ (holding 5 none 0).entry 5 = some (entry none 0) ∧ sigOf 0 = none ∧ sigOf 7 = none := by
  decide +kernel

/-- A session bound to slot 5. -/
def boundSess (phase held : Option Phase) (c : Option Sig) : Session :=
  { sess phase held c with boundSlot := some 5, identity := some ⟨1, 2, 3⟩ }

/-- Port 0 in some state beside the entry of slot 5 with one user. -/
def beside (q : Port) (g : Nat) (pinned : Option Sig) : State :=
  (small q g).modMemory fun _ => (holding 5 pinned 1).memory

theorem memory_beside (q : Port) (g : Nat) (pinned : Option Sig) : MemoryLaw (beside q g pinned) :=
  memory_holding 5 pinned 1

theorem exact_beside {q : Port} {g : Nat} (pinned : Option Sig) (h : q.exactLaw g) : ExactLaw (beside q g pinned) :=
  exact_small h

theorem session_beside {q : Port} (g : Nat) (pinned : Option Sig) (h : q.sessionLaw) : SessionLaw (beside q g pinned) :=
  session_small g h

/-- Port 0 presenting P in a phase, bound to slot 5, with a verdict on L. -/
def boundIn (phase : Phase) (verdict : Verdict) : Port :=
  unit .occupied (some .P) (some { boundSess (some phase) none (some .P) with verdicts := [⟨.L, verdict, false⟩] })

theorem exact_boundIn (phase : Phase) (verdict : Verdict) : (boundIn phase verdict).exactLaw 500 := by
  simp [Port.exactLaw, boundIn, unit, Port.reset, Sig.offered]

theorem session_boundIn (phase : Phase) (verdict : Verdict) : (boundIn phase verdict).sessionLaw := by
  simp [Port.sessionLaw, boundIn, boundSess, sess, unit]

theorem witness_PmPin_told :
    (∀ ph, ExactLaw (beside (boundIn ph .accepted) 500 none) ∧ MemoryLaw (beside (boundIn ph .accepted) 500 none)
        ∧ ((boundIn ph .accepted).session.any fun x => x.boundSlot == some 5) = true)
      ∧ (beside (boundIn .steady .accepted) 500 none).entry 5 = some (entry none 1)
      ∧ (beside (boundIn .steady .accepted) 500 (some .A)).entry 5 = some (entry (some .A) 1)
      ∧ (∀ x, (boundIn .evaluating .accepted).session = some x → (boundIn .evaluating .accepted).marksDue x)
      ∧ (∀ x, (boundIn .settling .accepted).session = some x →
          ¬ (boundIn .settling .accepted).marksDue x ∧ x.phase ≠ some .steady)
      ∧ ((boundIn .steady .accepted).pins.hen = false ∧ Sig.L.rank ≤ Policy.reset.forSession.maxSig.rank
        ∧ verdictIn [⟨.L, .accepted, false⟩] .L ≠ some .rejected ∧ (boundIn .steady .accepted).presented ≠ some .L)
      ∧ verdictIn [⟨.L, .rejected, false⟩] .L = some .rejected := by
  refine ⟨fun ph => ⟨exact_beside none (exact_boundIn _ _), memory_beside _ _ _, by cases ph <;> decide⟩,
    by decide +kernel, by decide +kernel, ?_, ?_, by decide +kernel, by decide⟩ <;>
  · intro x hx
    cases hx
    simp [Port.marksDue, boundIn, boundSess, sess, unit]

/-- An unpin in STEADY: the entry, SETTLED on H, sends the session from P toward H; with L proved instead of H on a port that
presents L, the session rests. -/
theorem witness_PmUnpin_steady :
    let settled : Sig → Entry := fun g => { entry (some .P) 1 with tallies := Tallies.zero.modify (fun _ => ⟨6, 0⟩) g }
    let s : Sig → Option Sig → State := fun g c =>
      (small (unit .occupied c (some (boundSess (some .steady) none c))) 1000).modMemory fun m => m.insertFront 5 (settled g)
    ((s .H (some .P)).entry 5 = some (settled .H) ∧ ((s .H (some .P)).port 0).presented = some .P
        ∧ (boundSess (some .steady) none (some .P)).presented = some .P
        ∧ (boundSess (some .steady) none (some .P)).shed = false)
      ∧ (let t := after State.reset (exec (.pmUnpin 1 1 2) (s .H (some .P)))
         t.aims (boundSess (some .steady) none (some .P)) ((s .H (some .P)).port 0)
             [⟨.H, .evaluate⟩, ⟨.B, .evaluate⟩, ⟨.A, .evaluate⟩, ⟨.L, .evaluate⟩] = true
           ∧ (t.port 0).session.map (fun x => (x.phase, x.current)) = some (some .representing, some ⟨.H, .evaluate⟩))
      ∧ (let t := after State.reset (exec (.pmUnpin 1 1 2) (s .L (some .L)))
         t.aims (boundSess (some .steady) none (some .L)) ((s .L (some .L)).port 0) [⟨.L, .evaluate⟩] = false
           ∧ t.phase 0 = some .steady) := by
  decide +kernel

theorem witness_CallMade (shed : Bool) :
    let x := { boundSess (some .steady) none (some .P) with shed := shed }
    let q := unit .occupied (some .P) (some x)
    q.state = .occupied ∧ x.phase = some .steady ∧ q.presented = x.presented ∧ x.shed = shed :=
  ⟨rfl, rfl, rfl, rfl⟩

/-- The rows of a first step taken (R49, R50): each is met by a port, a grant and a sequence. -/
theorem witness_took :
    let y : Phase → List TrialStep → Session := fun ph l => { sess (some ph) none none with current := l.head?, remaining := l.tail }
    (y .steady []).took (unit .occupied (some .P) none) 500 [] = true
      ∧ (y .representing []).took (unit .occupied (some .L) none) 1000 [] = true
      ∧ (y .steady []).took (unit .occupied (some .L) none) 1000 [⟨.L, .present⟩] = true
      ∧ (y .evaluating [⟨.L, .evaluate⟩]).took (unit .occupied (some .L) none) 1000 [⟨.L, .evaluate⟩] = true
      ∧ (y .representing [⟨.L, .present⟩]).took (unit .occupied (some .P) none) 500 [⟨.L, .present⟩] = true
      ∧ (y .waitingBudget [⟨.L, .present⟩]).took (unit .occupied (some .P) none) 500 [⟨.L, .present⟩] = true
      ∧ (y .steady []).took (unit .occupied (some .P) none) 500 [⟨.L, .present⟩] = false
      ∧ (y .waitingBudget [⟨.L, .present⟩]).took (unit .occupied (some .P) none) 1000 [⟨.L, .present⟩] = false := by
  decide +kernel

theorem witness_PmClear : 1 < (2 : Byte).toNat := by decide

theorem witness_Preferred :
    let e : Entry := { entry none 0 with tallies := { Tallies.zero with h := ⟨4, 2⟩, b := ⟨6, 0⟩ } }
    let n : Entry := { entry none 0 with tallies := { Tallies.zero with f := ⟨0, 1⟩ } }
    e.preferred = some .H ∧ e.state 3 = .tentative ∧ e.state 2 = .settled
      ∧ n.preferred = none ∧ n.state 2 = .tentative ∧ (entry none 0).state 2 = .new
      ∧ (entry (some .P) 0).state 2 = .pinned := by
  decide

theorem witness_Fold : (holding 3 none 0).memory.entry 3 = some (entry none 0) := by decide +kernel

/-! Port states. -/

theorem witness_EnablePort :
    SessionLaw (small (Port.reset quiet) 0) ∧ LinesLaw (small (Port.reset quiet) 0)
      ∧ ((small (Port.reset quiet) 0).port 0).state = .disabled
      ∧ (small (Port.reset quiet) 0).budget.pendingTotal = none ∧ 500 ≤ (small (Port.reset quiet) 0).headroom
      ∧ ((small (Port.reset quiet) 0).port 0).policy.powerGood ≠ 0
      ∧ ((small { Port.reset quiet with policy := { Policy.reset with powerGood := 0 } } 0).port 0).policy.powerGood = 0 :=
  ⟨session_small 0 (by simp [Port.sessionLaw, Port.reset]),
    lines_small 0 (by simp [Port.linesLaw, Port.reset, PortState.isOn, quiet]), rfl, rfl, by decide +kernel, by decide, rfl⟩

theorem witness_DisableAndResetPort : (occupied.port 0).state ≠ .disabled ∧ occupied.host.inReset = false := by
  decide +kernel

def steady : State := small (unit .occupied (some .P) (some (sess (some .steady) none (some .P)))) 500

theorem witness_RetryTrials : (steady.port 0).state = .occupied ∧ steady.phase 0 = some .steady
    ∧ (steady.port 0).session = some (sess (some .steady) none (some .P)) := by decide +kernel

theorem witness_computedSteps :
    let full : Entry := { entry none 0 with tallies := { Tallies.zero with h := ⟨6, 0⟩ } }
    ((entry none 0).state 3 = .new)
      ∧ ({ entry none 0 with tallies := { Tallies.zero with f := ⟨0, 1⟩ } } : Entry).state 3 = .tentative
      ∧ ({ entry none 0 with tallies := { Tallies.zero with f := ⟨0, 1⟩ } } : Entry).preferred = none
      ∧ (full.state 7 = .tentative ∧ full.preferred = some .H) ∧ (full.state 3 = .settled ∧ full.preferred = some .H)
      ∧ (([⟨.F, .rejected, true⟩, ⟨.H, .inconclusive, false⟩] : List VerdictEntry).map (·.sig)).Nodup
      ∧ underVerdicts false [⟨.F, .rejected, true⟩, ⟨.H, .inconclusive, false⟩] [⟨.F, .evaluate⟩, ⟨.B, .evaluate⟩,
          ⟨.H, .evaluate⟩, ⟨.L, .evaluate⟩] = [⟨.B, .evaluate⟩, ⟨.H, .present⟩]
      ∧ underVerdicts true [⟨.F, .rejected, true⟩, ⟨.H, .inconclusive, false⟩] [⟨.F, .evaluate⟩, ⟨.B, .evaluate⟩,
          ⟨.H, .evaluate⟩, ⟨.L, .evaluate⟩] = [⟨.B, .evaluate⟩, ⟨.H, .evaluate⟩, ⟨.L, .evaluate⟩] := by
  decide +kernel

/-- Port 0 occupied in a phase, presenting P, with no session bound. -/
def unbound (phase : Phase) : Port := unit .occupied (some .P) (some (sess (some phase) none (some .P)))

/-- Port 0 in HOLD from EVALUATING, presenting P. -/
def heldUnbound : Port := unit .hold (some .P) (some (sess none (some .evaluating) (some .P)))

theorem exact_unbound (phase : Phase) : (unbound phase).exactLaw 500 ∧ (unbound phase).sessionLaw := by
  simp [Port.exactLaw, Port.sessionLaw, unbound, unit, Port.reset, Sig.offered, sess]

theorem exact_heldUnbound : heldUnbound.exactLaw 500 ∧ heldUnbound.sessionLaw := by
  simp [Port.exactLaw, Port.sessionLaw, heldUnbound, unit, Port.reset, Sig.offered, sess]

theorem laws_modMemory {s : State} (f : ProfileMemory → ProfileMemory) (h : SessionLaw s) (e : ExactLaw s) :
    SessionLaw (s.modMemory f) ∧ ExactLaw (s.modMemory f) := ⟨h, e⟩

/-- The premises outside the session: IDENTIFYING unbound beside an entry, bound beside it, HOLD with a memory. -/
theorem witness_PostIdentity_laws :
    (∀ ph, MemoryLaw (beside (unbound ph) 500 none) ∧ SessionLaw (beside (unbound ph) 500 none)
        ∧ ExactLaw (beside (unbound ph) 500 none) ∧ ((beside (unbound ph) 500 none).port 0).state = .occupied)
      ∧ (∀ ph, MemoryLaw (beside (boundIn ph .accepted) 500 none) ∧ SessionLaw (beside (boundIn ph .accepted) 500 none)
        ∧ ExactLaw (beside (boundIn ph .accepted) 500 none))
      ∧ (∀ users, MemoryLaw ((small heldUnbound 500).modMemory fun _ => fullMemory users)
        ∧ SessionLaw ((small heldUnbound 500).modMemory fun _ => fullMemory users)
        ∧ ExactLaw ((small heldUnbound 500).modMemory fun _ => fullMemory users)
        ∧ (((small heldUnbound 500).modMemory fun _ => fullMemory users).port 0).state = .hold) :=
  ⟨fun ph => ⟨memory_beside _ _ _, session_beside _ _ (exact_unbound ph).2, exact_beside _ (exact_unbound ph).1, rfl⟩,
    fun ph => ⟨memory_beside _ _ _, session_beside _ _ (session_boundIn ph .accepted), exact_beside _ (exact_boundIn ph .accepted)⟩,
    fun users => ⟨memory_full users, (laws_modMemory _ (session_small 500 exact_heldUnbound.2)
      (exact_small exact_heldUnbound.1)).1, (laws_modMemory _ (session_small 500 exact_heldUnbound.2)
      (exact_small exact_heldUnbound.1)).2, rfl⟩⟩

theorem witness_PostIdentity :
    (unbound .identifying).session = some (sess (some .identifying) none (some .P))
      -- confirm: the same key as the session's identity, the release as held or another
      ∧ ((boundSess (some .steady) none (some .P)).boundSlot = some 5
        ∧ ((boundSess (some .steady) none (some .P)).identity.any fun i => i.vendor == 1 && i.product == 2) = true
        ∧ (beside (boundIn .steady .accepted) 500 none).entry 5 = some (entry none 1) ∧ (entry none 1).release = 3
        ∧ (entry none 1).release ≠ 4)
      -- a bind to the key held, and a rebind to another key
      ∧ ((sess (some .steady) none (some .P)).boundSlot = none
        ∧ ((beside (unbound .steady) 500 none).memoryForBind (sess (some .steady) none (some .P))).entry 5
            = some (entry none 1))
      ∧ (((boundSess (some .steady) none (some .P)).identity.all fun i => !(i.vendor == 1 && i.product == 3)) = true
        ∧ ((beside (unbound .steady) 500 none).memoryForBind (boundSess (some .steady) none (some .P))).entry 5
            = some (entry none 0))
      -- no entry of the key: the lowest VACANT slot, an evicted slot, or no room
      ∧ ((∀ n, (((beside (unbound .steady) 500 none).memoryForBind (sess (some .steady) none (some .P))).entry n).all
            fun e => !(e.vendor == 1 && e.product == 3))
        ∧ (beside (unbound .steady) 500 none).entry 0 = none ∧ ∀ n : SlotId, ¬(n < 0))
      ∧ ((∀ n, ((fullMemory 0).entry n).all fun e => !(e.vendor == 1 && e.product == 3))
        ∧ (∀ n, ((fullMemory 0).entry n).isSome = true)
        ∧ ((fullMemory 0).recency.reverse.find? fun n =>
            ((fullMemory 0).entry n).any fun e => e.pinned.isNone && e.users == 0) = some 47)
      ∧ ∀ n, ((fullMemory 1).entry n).any fun e => e.pinned.isSome || 0 < e.users := by
  decide +kernel

theorem witness_RefusedCommands :
    7 < (8 : Byte).toNat ∧ (occupied.port 0).state ≠ .disabled ∧ (State.reset.port 0).state = .disabled
      ∧ ({ State.reset with budget := { Budget.reset with pendingTotal := some 4000 } } : State).budget.pendingTotal.isSome
          = true
      ∧ (State.reset.setGrant 1 7501).headroom < 500
      ∧ (State.reset.port 0).state ≠ .occupied ∧ (State.reset.port 0).state ≠ .hold
      ∧ ¬((occupied.port 0).state = .occupied ∧ occupied.phase 0 = some .steady) := by
  decide +kernel

theorem witness_SetBudget :
    ¬(4000 ≤ (3900 : Half).toNat) ∧ ¬((20100 : Half).toNat ≤ 20000) ∧ ¬((4050 : Half).toNat % 100 = 0)
      ∧ (4000 ≤ (4000 : Half).toNat ∧ (4000 : Half).toNat ≤ 20000 ∧ (4000 : Half).toNat % 100 = 0)
      ∧ (20000 : Half).toNat ≤ 20000 ∧ State.reset.budget.pendingTotal = none
      ∧ (State.reset.setGrant 1 4000).sumGrants ≤ (4000 : Half).toNat
      ∧ (4000 : Half).toNat < (State.reset.setGrant 1 4001).sumGrants := by
  decide +kernel

/-- The queue of port 0 waiting for F, with a budget total and a change pending or not. -/
def service (total : Nat) (pending : Option Nat) : State :=
  let s := (small (unit .occupied (some .P) (some { sess (some .waitingBudget) none (some .P) with
    target := some .F, current := some ⟨.F, .evaluate⟩ })) 500).setQueue [⟨0, .F, 1000⟩]
  { s with budget := { s.budget with total := total, pendingTotal := pending } }

theorem witness_SetBudget_service :
    (4000 : Nat) - (service 8000 none).sumGrants ≥ Sig.F.offered - (service 8000 none).grant 0
      ∧ (service 8000 none).budget.queue.head? = some ⟨0, .F, 1000⟩
      ∧ (((service 8000 none).budget.queue.map (·.port)).Nodup)
      ∧ (let s := (service 8000 none).setGrant 1 3500
         4000 - s.sumGrants < Sig.F.offered - s.grant 0 ∧ s.sumGrants ≤ 4000) := by
  decide +kernel

/-- Port 0 in some state with 2400 mA beside three DISABLED ports counted at 2000 mA; a total of 4000 sheds it. -/
def crowded (q : Port) : State := (((small q 2400).setGrant 1 500).setGrant 2 500).setGrant 3 1000

/-- The laws that the shed asks for hold of such a state when they hold of its port. -/
theorem witness_SetBudget_laws {q : Port} (h : q.sessionLaw) (hw : ∀ x, q.session = some x → x.phase ≠ some .waitingBudget) :
    SessionLaw (crowded q) ∧ QueueLaw (crowded q) :=
  have laws : ∀ s : State, ∀ p g, SessionLaw s → QueueLaw s → SessionLaw (s.setGrant p g) ∧ QueueLaw (s.setGrant p g) :=
    fun _ _ _ a b => ⟨a, b⟩
  have a := laws _ 1 500 (session_small 2400 h) (queue_small 2400 hw)
  have b := laws _ 2 500 a.1 a.2
  laws _ 3 1000 b.1 b.2

theorem witness_SetBudget_session_laws :
    (unit .idle (some .P) none).sessionLaw ∧ (unit .occupied (some .F) (some (sess (some .evaluating) none (some .F)))).sessionLaw
      ∧ (unit .occupied (some .P) (some (sess (some .settling) none (some .P)))).sessionLaw
      ∧ (unit .hold (some .F) (some (sess none (some .evaluating) (some .F)))).sessionLaw
      ∧ (∀ plan, (fixedUnit .recovery none (some { sess none none (some .F) with resumePlan := plan })).sessionLaw
        ∧ (fixedUnit .powering none (some { sess none none (some .F) with resumePlan := plan })).sessionLaw) := by
  simp [Port.sessionLaw, unit, fixedUnit, sess, Port.reset]

theorem witness_SetBudget_victims :
    (4000 < (crowded (unit .idle (some .P) none)).sumGrants)
      ∧ (crowded (unit .idle (some .P) none)).victimsFor 4000 = [0]
      ∧ ((crowded (unit .occupied (some .F) (some (sess (some .evaluating) none (some .F))))).victimsFor 4000 = [0]
        ∧ (some Sig.F ≠ some .P))
      ∧ (crowded (unit .occupied (some .P) (some (sess (some .settling) none (some .P))))).victimsFor 4000 = [0]
      ∧ (crowded { unit .occupied none (some (sess (some .representing) none none)) with
          rePresent := some ⟨.F, 9, true, .hub, some .P⟩ }).victimsFor 4000 = [0]
      ∧ (crowded (unit .hold (some .F) (some (sess none (some .evaluating) (some .F))))).victimsFor 4000 = [0]
      ∧ (crowded (fixedUnit .recovery none (some { sess none none (some .F) with resumePlan := some .rest }))).victimsFor 4000
          = [0]
      ∧ (crowded (fixedUnit .powering none (some { sess none none (some .F) with resumePlan := some .rest }))).victimsFor 4000
          = [0]
      ∧ ((State.reset.setGrant 1 2400).setGrant 2 2400).victimsFor 4000 = [2]
      ∧ (((State.reset.setGrant 1 1500).setGrant 2 2400).setGrant 3 2400).victimsFor 4000 = [3, 2] := by
  decide +kernel

theorem witness_frames :
    encodeCommand (.getGlobals 1) = some (1, 5, []) ∧ encodeFrame (.getGlobals 1) = some [0x01, 0x05, 0x00, 0x2A]
      ∧ decodeFrame [0x01, 0x05, 0x00, 0x2B] = .error .badCrc ∧ ([0x01, 0x05, 0x00, 0x2B] : List Byte) ≠ [] := by
  decide +kernel

theorem witness_FailedFrame :
    ([1, 5] : List Byte).length < 3 ∧ 32 < (33 : Byte).toNat
      ∧ ((32 : Byte).toNat ≤ 32 ∧ (List.replicate 32 (0 : Byte)).length < (32 : Byte).toNat + 1)
      ∧ ((0 : Byte).toNat ≤ 32 ∧ (0 : Byte).toNat + 1 ≤ ([0x2B] : List Byte).length
          ∧ crc8 (1 :: 5 :: 0 :: ([0x2B] : List Byte).take 0) ≠ ([0x2B] : List Byte).getD 0 0)
      ∧ (crc8 (1 :: 7 :: 0 :: ([crc8 [1, 7, 0]] : List Byte).take 0) = ([crc8 [1, 7, 0]] : List Byte).getD 0 0
          ∧ parameterLength 7 = none)
      ∧ (crc8 (1 :: 3 :: 0 :: ([crc8 [1, 3, 0]] : List Byte).take 0) = ([crc8 [1, 3, 0]] : List Byte).getD 0 0
          ∧ parameterLength 3 = some 2) := by
  decide +kernel

/-- Reset with a frame in assembly in a write. -/
def writing (f : Frame) : State := { State.reset with host := { State.reset.host with bus := .write, frame := some f } }

theorem witness_AddressAndDataBytes :
    (State.reset.host.frame.all fun f => f.bytes.isEmpty) = true
      ∧ (0xB8 : Byte).extractLsb' 1 7 = State.reset.host.address ∧ (0xB8 : Byte).getLsbD 0 = false
      ∧ (0xB9 : Byte).extractLsb' 1 7 = State.reset.host.address ∧ (0xB9 : Byte).getLsbD 0 = true
      ∧ (0xBA : Byte).extractLsb' 1 7 ≠ State.reset.host.address
      ∧ (writing ⟨[1], none, false⟩).host.frame = some ⟨[1], none, false⟩ ∧ (writing ⟨[1], none, false⟩).host.bus = .write
      ∧ ([1] : List Byte).length < 2 ∧ 2 ≤ ([1, 5] : List Byte).length
      ∧ ([1, 5, 0] : List Byte).length < 0 + 4 ∧ 0 + 4 ≤ ([1, 5, 0, 0x2A] : List Byte).length
      ∧ State.reset.host.bus ≠ .write := by
  decide +kernel

theorem witness_Read :
    (State.reset.host.frame.all fun f => f.bytes.isEmpty) = true
      ∧ (([] : List Bool).all id) = true ∧ (([true, true] : List Bool).all id) = true ∧ false ∈ [true, false]
      ∧ State.reset.host.bus ≠ .read ∧ State.reset.host.response = none := by
  decide +kernel

/-- Port 0 in the victim set of a pending change, a re-present in flight. -/
def victimised (q : Port) : State :=
  let s := small { q with presented := none, rePresent := some ⟨.F, 9, false, .holdExpiry, some .F⟩ } 2400
  { s with budget := { s.budget with victims := s.budget.victims.set 0 true, pendingTotal := some 4000 } }

theorem witness_victim_returns :
    (let s := victimised (unit .idle none none)
     (s.port 0).fixed = false ∧ (s.port 0).state = .idle ∧ s.victim 0 = true ∧ (s.port 0).switchOn = true
       ∧ (s.port 0).rePresent.isSome = true)
      ∧ (let s := victimised (unit .hold none (some (sess none (some .representing) none)))
         (s.port 0).fixed = false ∧ (s.port 0).state = .hold ∧ s.victim 0 = true ∧ (s.port 0).switchOn = true
           ∧ (s.port 0).session.isSome = true ∧ s.heldPhase 0 ≠ some .evaluating ∧ (s.port 0).rePresent.isSome = true) := by
  decide +kernel

theorem witness_Attach :
    let s := small (unit .idle (some .P) none) 500
    s.host.inReset = false ∧ (s.port 0).fixed = false ∧ (s.port 0).state = .idle ∧ s.victim 0 = false := by
  decide +kernel

/-- Port 0 in HOLD with a held phase and a step on F. -/
def held (ph : Phase) : State :=
  small (unit .hold (some .P) (some { sess none (some ph) (some .P) with
    current := some ⟨.F, .evaluate⟩, boundSlot := some 5 })) 500

theorem witness_ReturnInHold :
    ((held .evaluating).port 0).fixed = false ∧ ((held .evaluating).port 0).state = .hold
      ∧ (held .evaluating).victim 0 = false ∧ (held .evaluating).heldPhase 0 = some .evaluating
      ∧ (held .steady).heldPhase 0 = some .steady ∧ (held .settling).heldPhase 0 = some .settling
      ∧ ((held .evaluating).modMemory fun _ => (holding 5 none 1).memory).entry 5 = some (entry none 1) := by
  decide +kernel

theorem witness_Detach :
    ((occupied.port 0).fixed = false ∧ (occupied.port 0).state = .occupied
        ∧ (occupied.port 0).session = some (sess (some .settling) none (some .P)))
      ∧ (held .steady).host.inReset = false ∧ ((held .steady).port 0).state ≠ .occupied
      ∧ ((small (fixedUnit .occupied (some .P) none) 500).port 0).fixed = true := by
  decide +kernel

/-- Port 0 with a session in OCCUPIED, presenting F with the grant for it. -/
def onF : State := small (unit .occupied (some .F) (some (sess (some .evaluating) none (some .F)))) 2400

/-- The same with a re-present toward F in flight. -/
def towardF : State :=
  small { unit .occupied none (some (sess (some .representing) none none)) with
    rePresent := some ⟨.F, 50, false, .sequencer, some .P⟩ } 2400

/-- Port 0 waiting for budget toward F. -/
def waiting : State :=
  (small (unit .occupied (some .P) (some { sess (some .waitingBudget) none (some .P) with
    target := some .F, current := some ⟨.F, .evaluate⟩ })) 500).setQueue [⟨0, .F, 1000⟩]

theorem witness_HubEdges :
    ((onF.port 0).hubTakes = true ∧ (onF.port 0).rePresent = none ∧ (onF.port 0).presented = some .F)
      ∧ ((towardF.port 0).hubTakes = true ∧ (towardF.port 0).rePresent = some ⟨.F, 50, false, .sequencer, some .P⟩)
      ∧ ((occupied.port 0).hubTakes = false ∧ (occupied.port 0).waitsChargeOnly = false)
      ∧ ((waiting.port 0).hubTakes = false ∧ (waiting.port 0).waitsChargeOnly = true)
      ∧ ((steady.port 0).policy.upgradeOnRelease = true ∧ steady.phase 0 = some .steady)
      ∧ occupied.phase 0 ≠ some .steady := by
  decide +kernel

theorem witness_LinkEdges :
    let s := small (fixedUnit .occupied (some .P) (some (sess (some .steady) none (some .P)))) 500
    ((s.port 0).fixed = true ∧ (s.port 0).state = .occupied ∧ (s.port 0).session.any (·.resumptionWindow) = false)
      ∧ (occupied.port 0).fixed = false ∧ occupied.host.inReset = false := by
  decide +kernel

/-- Port 0 presenting A with the detector in a state. -/
def probing (d : Detector) (left : Option Nat) : State :=
  small { unit .occupied (some .A) (some (sess (some .evaluating) none (some .A))) with
    detector := d, timers := { Timers.stopped with probe := left } } 1500

theorem witness_Probe :
    ((probing .timing (some 8)).port 0).detector = .timing ∧ ((probing .timing (some 8)).port 0).timers.probe.isSome = true
      ∧ ((probing .replying none).port 0).detector = .replying ∧ ((probing .watching none).port 0).detector = .watching
      ∧ ((probing .watching none).port 0).timers.probe = none := by
  decide +kernel

theorem witness_taps_and_pen (c : Option Sig) :
    ((small (unit .occupied c (some (sess (some .steady) none c))) 500).port 0).presented = c
      ∧ ((small (unit .powering none none) 500).port 0).linesLaw ∧ ((small (unit .fault none none) 500).port 0).linesLaw :=
  ⟨rfl, lines_small 500 (q := unit .powering none none) (by simp [Port.linesLaw, unit, Port.reset, PortState.isOn, quiet]) |>.1 0,
    lines_small 500 (q := unit .fault none none) (by simp [Port.linesLaw, unit, Port.reset, PortState.isOn, quiet]) |>.1 0⟩

theorem witness_Reading :
    (let s := small { unit .idle (some .P) none with overcurrent := true } 500
     (s.port 0).state = .idle ∧ s.grant 0 + s.grant 0 / 4 < 630 ∧ (s.port 0).overcurrent = true ∧ 630 % 10 = 0)
      ∧ 620 ≤ (small (unit .idle (some .P) none) 500).grant 0 + (small (unit .idle (some .P) none) 500).grant 0 / 4
      ∧ (State.reset.port 0).state ≠ .idle ∧ (State.reset.port 0).state ≠ .occupied
      ∧ (State.reset.port 0).state ≠ .hold ∧ 4000 % 10 = 0 ∧ 4000 ≤ 4000 := by
  decide +kernel

theorem witness_RePresentEnd :
    (QueueLaw towardF ∧ (towardF.port 0).rePresent = some ⟨.F, 50, false, .sequencer, some .P⟩)
      ∧ (let x := { sess (some .representing) none none with current := some ⟨.F, .evaluate⟩ }
         let r : RePresent := ⟨.F, 0, false, .sequencer, some .P⟩
         let s := small { unit .occupied none (some x) with rePresent := some r } 2400
         QueueLaw s ∧ (s.port 0).session = some x ∧ (s.port 0).state = .occupied ∧ x.phase = some .representing
           ∧ x.resumptionWindow = false ∧ x.current = some ⟨.F, .evaluate⟩ ∧ r.requester = .sequencer
           ∧ r.hubRetarget = false)
      ∧ (let r : RePresent := ⟨.P, 0, true, .shed, some .F⟩
         let s := small { unit .occupied none (some (sess (some .representing) none none)) with rePresent := some r } 2400
         QueueLaw s ∧ (s.port 0).rePresent = some r ∧ r.requester = .shed)
      ∧ (let s := small { unit .idle none none with rePresent := some ⟨.P, 0, false, .holdExpiry, some .F⟩ } 2400
         QueueLaw s ∧ (s.port 0).session = none ∧ (s.port 0).rePresent.isSome = true) :=
  ⟨⟨queue_small _ (fun x hx => by cases hx; decide), by decide +kernel⟩,
    ⟨queue_small _ (fun x hx => by cases hx; decide), by decide +kernel⟩,
    ⟨queue_small _ (fun x hx => by cases hx; decide), by decide +kernel⟩,
    ⟨queue_small _ (fun x hx => by cases hx), by decide +kernel⟩⟩

/-- Port 0 at the end of a re-present toward F. -/
def ending (st : PortState) (x : Session) (who : Requester) (mark : Bool) : State :=
  small { unit st none (some x) with rePresent := some ⟨.F, 0, mark, who, some .P⟩ } 2400

theorem queue_ending (st : PortState) (x : Session) (who : Requester) (mark : Bool) (h : x.phase ≠ some .waitingBudget) :
    QueueLaw (ending st x who mark) :=
  queue_small _ fun y hy => by cases hy; exact h

/-- The premises of the re-present's end hold of every session that does not wait, with each requester and mark; those of a
waiting one in `service`. -/
theorem witness_RePresentEnd_rows (st : PortState) (x : Session) (who : Requester) (mark : Bool)
    (h : x.phase ≠ some .waitingBudget) :
    QueueLaw (ending st x who mark) ∧ ((ending st x who mark).port 0).session = some x
      ∧ ((ending st x who mark).port 0).state = st
      ∧ ((ending st x who mark).port 0).rePresent = some ⟨.F, 0, mark, who, some .P⟩ :=
  ⟨queue_ending st x who mark h, rfl, rfl, rfl⟩

/-- The sessions those rows name: a PRESENT step, an exhausted sequence, SETTLING, HOLD, the windows of a resumption. -/
theorem witness_RePresentEnd_sessions :
    (let x := { sess (some .representing) none none with current := some ⟨.F, .present⟩ }
     x.phase = some .representing ∧ x.resumptionWindow = false ∧ (x.current.all fun st => st.kind == .present) = true
       ∧ x.recomputeDue = false)
      ∧ (let x := { sess (some .representing) none none with recomputeDue := true }
         (x.current.all fun st => st.kind == .present) = true ∧ x.recomputeDue = true)
      ∧ (sess (some .settling) none none).phase = some .settling
      ∧ (let x := sess none (some .representing) none
         x.phase = none ∧ x.held = some .representing ∧ (x.current.all fun st => st.kind == .present) = true
           ∧ (({ x with current := some ⟨.F, .evaluate⟩ } : Session).current.any fun st => st.kind == .evaluate) = true)
      ∧ (sess none (some .waitingBudget) none).held = some .waitingBudget
      ∧ (∀ plan, let x := { sess (some .representing) none none with resumptionWindow := true, resumePlan := plan }
         x.phase = some .representing ∧ x.resumptionWindow = true ∧ x.shed = false ∧ x.resumePlan = plan
           ∧ x.recomputeDue = false) :=
  ⟨by decide, by decide, rfl, by decide, rfl, fun _ => ⟨rfl, rfl, rfl, rfl, rfl⟩⟩

theorem witness_RePresentEnd_waiting :
    let s := (small { unit .occupied none (some { sess (some .waitingBudget) none none with
      current := some ⟨.F, .evaluate⟩ }) with rePresent := some ⟨.P, 0, false, .resumption, none⟩ } 500).setQueue [⟨0, .F, 1000⟩]
    QueueLaw s ∧ s.phase 0 = some .waitingBudget ∧ s.grant 0 ≤ Sig.P.offered := by
  refine ⟨⟨by decide, fun p => ?_⟩, by decide +kernel⟩
  have e : ∀ p, ((small { unit .occupied none (some { sess (some .waitingBudget) none none with
      current := some ⟨.F, .evaluate⟩ }) with rePresent := some ⟨.P, 0, false, .resumption, none⟩ } 500).setQueue
        [⟨0, .F, 1000⟩]).queued p = true
      ↔ ((small { unit .occupied none (some { sess (some .waitingBudget) none none with
      current := some ⟨.F, .evaluate⟩ }) with rePresent := some ⟨.P, 0, false, .resumption, none⟩ } 500).setQueue
        [⟨0, .F, 1000⟩]).phase p = some .waitingBudget := by decide +kernel
  exact e p

/-- An IDLE victim at the end of its re-present toward P, port 1 being a victim too or not. -/
def victimEnding (other : Bool) : State :=
  let s := (small { unit .idle none none with rePresent := some ⟨.P, 0, false, .holdExpiry, some .F⟩ } 2400).setGrant 1 1500
  { s with budget := { s.budget with
      pendingTotal := some 4000, victims := (s.budget.victims.set 0 true).set 1 other } }

/-- The last victim's re-present completes the change; with port 1 left the change stays pending. -/
theorem witness_RePresentEnd_victim :
    (∀ other, QueueLaw (victimEnding other) ∧ (victimEnding other).budget.pendingTotal = some 4000
        ∧ (victimEnding other).victim 0 = true ∧ 500 < (victimEnding other).grant 0
        ∧ ((victimEnding other).port 0).rePresent = some ⟨.P, 0, false, .holdExpiry, some .F⟩)
      ∧ (∀ q, q ≠ 0 → (victimEnding false).victim q = false) ∧ (victimEnding true).victim 1 = true
      ∧ (after State.reset (exec (.rePresentTimerExpiry 0) (victimEnding false))).budget.total = 4000
      ∧ (after State.reset (exec (.rePresentTimerExpiry 0) (victimEnding true))).budget.total = 8000 :=
  ⟨fun other => ⟨queue_small (q := { unit .idle none none with rePresent := some ⟨.P, 0, false, .holdExpiry, some .F⟩ }) 2400
      (fun x hx => by cases hx), rfl, by cases other <;> rfl, by cases other <;> decide +kernel, rfl⟩,
    by decide +kernel⟩

/-- Port 0 in SETTLING or IDENTIFYING with an identity wait in the session policy. -/
def identifying (ph : Phase) (wait : Nat) : State :=
  small { unit .occupied (some .P) (some { sess (some ph) none (some .P) with
      policy := { Policy.reset.forSession with identityWait := wait } }) with
    timers := { Timers.stopped with settle := some 0, identityWait := some 0 } } 500

theorem witness_SettleAndIdentityWait :
    ((identifying .settling 1).port 0).timers.settle.isSome = true ∧ (identifying .settling 1).phase 0 = some .settling
      ∧ (((identifying .settling 1).port 0).session.any fun x =>
          !x.trialsBegun && decide (0 < x.policy.identityWait) && x.identity == none) = true
      ∧ (((identifying .settling 0).port 0).session.any fun x => x.policy.identityWait == 0) = true
      ∧ ((identifying .identifying 15).port 0).timers.identityWait.isSome = true
      ∧ (identifying .identifying 15).phase 0 = some .identifying := by
  decide +kernel

/-- Port 0 in HOLD with its timer run out. -/
def holdEnds (c : Option Sig) (r : Option RePresent) : State :=
  small { unit .hold c (some { sess none (some .steady) c with boundSlot := some 5 }) with
    rePresent := r, timers := { Timers.stopped with hold := some 0 } } 2400

theorem witness_HoldExpiry :
    (LinesLaw (holdEnds (some .P) none) ∧ ((holdEnds (some .P) none).port 0).timers.hold.isSome = true
        ∧ ((holdEnds (some .P) none).port 0).state = .hold ∧ ((holdEnds (some .P) none).port 0).session.isSome = true)
      ∧ (LinesLaw (holdEnds (some .F) none) ∧ ((holdEnds (some .F) none).port 0).presented = some .F)
      ∧ (LinesLaw (holdEnds none (some ⟨.F, 9, false, .sequencer, none⟩))
        ∧ ((holdEnds none (some ⟨.F, 9, false, .sequencer, none⟩)).port 0).rePresent.isSome = true) :=
  ⟨⟨lines_small _ (by simp [Port.linesLaw, unit, Port.reset, PortState.isOn, quiet]), by decide +kernel⟩,
    ⟨lines_small _ (by simp [Port.linesLaw, unit, Port.reset, PortState.isOn, quiet]), by decide +kernel⟩,
    ⟨lines_small _ (by simp [Port.linesLaw, unit, Port.reset, PortState.isOn, quiet]), by decide +kernel⟩⟩

/-- Port 0 with every timer of its state run out. -/
def expiring (q : Port) : State :=
  small { q with timers := { Timers.stopped with powerGood := some 0, coolDown := some 0, toggleOff := some 0 } } 500

theorem witness_PowerGood (att : Bool) :
    let q := { unit .powering none none with pins := { quiet with att := att } }
    LinesLaw (expiring q) ∧ SessionLaw (expiring q) ∧ CoverLaw (expiring q) ∧ ((expiring q).port 0).state = .powering
      ∧ ((expiring q).port 0).timers.powerGood.isSome = true ∧ (expiring q).victim 0 = false
      ∧ ((expiring q).port 0).fixed = false :=
  ⟨lines_small _ (by simp [Port.linesLaw, unit, Port.reset, PortState.isOn, quiet]),
    session_small _ (by simp [Port.sessionLaw, unit, Port.reset]),
    cover_small (by simp [Port.coverLaw, unit, Port.reset]), rfl, rfl, rfl, rfl⟩

/-- A session kept through link recovery. -/
def keptSession : Session := { sess none none (some .L) with resumePlan := some .rest }

theorem witness_PowerGood_fixed :
    (let q := fixedUnit .powering none none
     LinesLaw (expiring q) ∧ SessionLaw (expiring q) ∧ CoverLaw (expiring q) ∧ ((expiring q).port 0).fixed = true
       ∧ ((expiring q).port 0).session = none)
      ∧ (let q := fixedUnit .powering none (some { keptSession with presented := some .P })
         LinesLaw (expiring q) ∧ SessionLaw (expiring q) ∧ CoverLaw (expiring q) ∧ ((expiring q).port 0).fixed = true
           ∧ ((expiring q).port 0).session.bind (·.presented) = some .P) :=
  ⟨⟨lines_small _ (by simp [Port.linesLaw, fixedUnit, unit, Port.reset, PortState.isOn, quiet]),
      session_small _ (by simp [Port.sessionLaw, fixedUnit, unit, Port.reset]),
      cover_small (by simp [Port.coverLaw, fixedUnit, unit, Port.reset]), rfl, rfl⟩,
    ⟨lines_small _ (by simp [Port.linesLaw, fixedUnit, unit, Port.reset, PortState.isOn, quiet]),
      session_small _ (by simp [Port.sessionLaw, fixedUnit, unit, Port.reset, keptSession, sess]),
      cover_small (by simp [Port.coverLaw, fixedUnit, unit, Port.reset, Sig.offered]), rfl, rfl⟩⟩

theorem witness_CoolDownAndToggleOff (trips : Nat) :
    (let q := { unit .fault none none with tripCount := trips }
     LinesLaw (expiring q) ∧ SessionLaw (expiring q) ∧ CoverLaw (expiring q) ∧ (expiring q).victim 0 = false
       ∧ ((expiring q).port 0).timers.coolDown.isSome = true ∧ ((expiring q).port 0).state = .fault
       ∧ ((expiring q).port 0).tripCount = trips ∧ ((expiring q).port 0).policy.faultRetries = 2)
      ∧ (let q := unit .recovery none none
         LinesLaw (expiring q) ∧ SessionLaw (expiring q) ∧ CoverLaw (expiring q)
           ∧ ((expiring q).port 0).timers.toggleOff.isSome = true ∧ ((expiring q).port 0).state = .recovery) :=
  ⟨⟨lines_small _ (by simp [Port.linesLaw, unit, Port.reset, PortState.isOn, quiet]),
      session_small _ (by simp [Port.sessionLaw, unit, Port.reset]),
      cover_small (by simp [Port.coverLaw, unit, Port.reset]), rfl, rfl, rfl, rfl, rfl⟩,
    ⟨lines_small _ (by simp [Port.linesLaw, unit, Port.reset, PortState.isOn, quiet]),
      session_small _ (by simp [Port.sessionLaw, unit, Port.reset]),
      cover_small (by simp [Port.coverLaw, unit, Port.reset]), rfl, rfl⟩⟩

/-- Port 0 at the end of a window on a signature, with accumulators and the entry of slot 5 bound. -/
def judging (g : Sig) (sum count : Nat) : State :=
  (small { unit .occupied (some g) (some { sess (some .evaluating) none (some g) with
      current := some ⟨g, .evaluate⟩, sum := sum, count := count, boundSlot := some 5 }) with
    timers := { Timers.stopped with evaluation := some 0 } } 2400).modMemory fun _ => (holding 5 none 1).memory

theorem witness_WindowExpiry :
    ((judging .F 16100 10).port 0).timers.evaluation.isSome = true ∧ (judging .F 16100 10).phase 0 = some .evaluating
      ∧ (((judging .F 16100 10).port 0).session.any fun x => x.current == some ⟨.F, .evaluate⟩) = true
      ∧ verdictFor .F (windowMean 16100 10) false = .accepted ∧ verdictFor .F (windowMean 16000 10) false = .inconclusive
      ∧ verdictFor .F (windowMean 0 0) false = .rejected ∧ verdictFor .A 600 false = .rejected
      ∧ verdictFor .A 560 true = .accepted ∧ verdictFor .L 100 false = .inconclusive
      ∧ (judging .F 16100 10).entry 5 = some (entry none 1) := by
  decide +kernel

theorem witness_WindowExpiry_rejected :
    verdictFor .F (windowMean 990 10) false = .rejected ∧ verdictFor .F (windowMean 1000 10) false = .inconclusive
      ∧ ((judging .F 990 10).port 0).headBlocked = false ∧ ((judging .F 990 10).port 0).rePresent = none
      ∧ ((judging .F 990 10).port 0).switchOn = true ∧ ((judging .F 990 10).port 0).presented ≠ some .P
      ∧ (((judging .F 990 10).port 0).session.any fun x => x.remaining == [] && !x.recomputeDue && !x.shed) = true
      ∧ ((judging .F 990 10).port 0).presented ≠ some Sig.L ∧ Sig.L.offered ≤ (judging .F 990 10).grant 0
      ∧ ({ judging .F 990 10 with memory := (holding 5 (some .A) 1).memory } : State).entry 5
          = some (entry (some .A) 1) := by
  decide +kernel

/-- A port in a phase working A with the charge-only step L next, HENn active. -/
def blocked (ph : Phase) (c : Sig) : Port :=
  { unit .occupied (some c) (some { sess (some ph) none (some c) with
      current := some ⟨.A, .evaluate⟩, remaining := [⟨.L, .evaluate⟩] }) with
    pins := { quiet with hen := true }, timers := { Timers.stopped with evaluation := some 0 } }

/-- A window on A without a probe ends REJECTED, and the blocked next step gives way to a computation in DATA mode. -/
theorem witness_WindowExpiry_blocked :
    (blocked .evaluating .A).headBlocked = true ∧ (blocked .evaluating .A).timers.evaluation.isSome = true
      ∧ verdictFor .A 500 false = .rejected
      ∧ ((blocked .evaluating .A).session.any fun x => !x.recomputeDue && x.current == some ⟨.A, .evaluate⟩) = true
      ∧ ((after State.reset (exec (.evaluationWindowExpiry 0) (small (blocked .evaluating .A) 1500))).port 0).session.map
          (fun y => (y.mode, y.phase, y.target)) = some (.data, some .representing, some .P) := by
  decide +kernel

theorem witness_WaitExpiry_blocked :
    let s := (small (blocked .waitingBudget .P) 500).setQueue [⟨0, .A, 1000⟩]
    QueueLaw s ∧ SessionLaw s ∧ ExactLaw s ∧ s.queued 0 = true ∧ (s.port 0).headBlocked = true
      ∧ ((s.port 0).session.any fun x => !x.recomputeDue) = true := by
  refine ⟨⟨by decide, ?_⟩, session_small 500 (q := blocked .waitingBudget .P) (by simp [Port.sessionLaw, blocked, unit, sess]),
    exact_small (g := 500) (q := blocked .waitingBudget .P)
      (by simp [Port.exactLaw, blocked, unit, Port.reset, Sig.offered]), by decide +kernel⟩
  have e : ∀ p, ((small (blocked .waitingBudget .P) 500).setQueue [⟨0, .A, 1000⟩]).queued p = true
      ↔ ((small (blocked .waitingBudget .P) 500).setQueue [⟨0, .A, 1000⟩]).phase p = some .waitingBudget := by
    decide +kernel
  exact e

/-- A waiting port for F under a rise of HENn: its old entry is gone, and the DATA-mode step on A is granted at once. -/
theorem test_hub_rise_while_waiting :
    let s := { waiting with budget := { waiting.budget with total := 4000 } }
    let t := after State.reset (exec (.hennRising 0) s)
    t.budget.queue = [] ∧ (t.port 0).session.map (fun y => (y.mode, y.phase, y.target))
      = some (.data, some .representing, some .A) := by
  decide +kernel

/-- The recompute-due mark at an entry to STEADY: at exhaustion and at a resumption that rests, bound or not. -/
theorem witness_due_at_rest (plan : Option ResumePlan) (window : Bool) :
    let x := { boundSess (some .representing) none none with
      recomputeDue := true, resumptionWindow := window, resumePlan := plan }
    x.phase = some .representing ∧ x.recomputeDue = true ∧ x.shed = false ∧ x.resumptionWindow = window
      ∧ x.resumePlan = plan ∧ (x.current.all fun st => st.kind == .present) = true :=
  ⟨rfl, rfl, rfl, rfl, rfl, rfl⟩

/-- Port 0 at the end of an accepted window on L with the recompute-due mark set, bound to an entry pinned or not. -/
def judgingDue (pinned : Option Sig) : State :=
  (small { unit .occupied (some .L) (some { sess (some .evaluating) none (some .L) with
      current := some ⟨.L, .evaluate⟩, sum := 9500, count := 10, boundSlot := some 5, recomputeDue := true }) with
    timers := { Timers.stopped with evaluation := some 0 } } 1000).modMemory fun _ => (holding 5 pinned 1).memory

/-- The mark set at an accepted verdict: with the entry pinned to B the re-aim test sends the session toward it, without a pin
the session rests. -/
theorem witness_WindowExpiry_due :
    (∀ pinned ∈ [none, some Sig.B], ((judgingDue pinned).port 0).timers.evaluation.isSome = true ∧ (judgingDue pinned).phase 0 = some .evaluating
        ∧ (((judgingDue pinned).port 0).session.any fun x => x.recomputeDue && !x.shed
            && x.current == some ⟨.L, .evaluate⟩ && x.presented == ((judgingDue pinned).port 0).presented) = true)
      ∧ verdictFor .L (windowMean 9500 10) false = .accepted
      ∧ ((after State.reset (exec (.evaluationWindowExpiry 0) (judgingDue (some .B)))).port 0).session.map
          (fun y => (y.phase, y.target)) = some (some .representing, some .B)
      ∧ (after State.reset (exec (.evaluationWindowExpiry 0) (judgingDue none))).phase 0 = some .steady :=
  ⟨by decide +kernel, by decide +kernel, by decide +kernel, by decide +kernel⟩

theorem queue_waiting : QueueLaw waiting := by
  refine ⟨by decide, fun p => ?_⟩
  have e : ∀ p, waiting.queued p = true ↔ waiting.phase p = some .waitingBudget := by decide +kernel
  exact e p

/-- The same while a change is pending with port 1 a victim. -/
def waitingBehind : State :=
  { waiting with budget := { waiting.budget with
      pendingTotal := some 4000, victims := waiting.budget.victims.set 1 true } }

theorem laws_waiting : SessionLaw waiting ∧ ExactLaw waiting :=
  ⟨session_small 500 (q := unit .occupied (some .P) (some { sess (some .waitingBudget) none (some .P) with
      target := some .F, current := some ⟨.F, .evaluate⟩ })) (by simp [Port.sessionLaw, unit, sess]),
    exact_small (g := 500) (q := unit .occupied (some .P) (some { sess (some .waitingBudget) none (some .P) with
      target := some .F, current := some ⟨.F, .evaluate⟩ })) (by simp [Port.exactLaw, unit, Port.reset, Sig.offered])⟩

theorem witness_WaitExpiry :
    (QueueLaw waiting ∧ SessionLaw waiting ∧ ExactLaw waiting ∧ waiting.queued 0 = true
        ∧ ((waiting.port 0).session.any fun x => !x.recomputeDue) = true ∧ (waiting.port 0).headBlocked = false)
      ∧ (QueueLaw waitingBehind ∧ SessionLaw waitingBehind ∧ ExactLaw waitingBehind ∧ waitingBehind.queued 0 = true
        ∧ waitingBehind.budget.pendingTotal.isSome = true ∧ waitingBehind.noVictims = false) :=
  ⟨⟨queue_waiting, laws_waiting.1, laws_waiting.2, by decide +kernel⟩,
    ⟨queue_waiting, laws_waiting.1, laws_waiting.2, by decide +kernel⟩⟩

/-- Port 0 waiting for F, port 1 behind it waiting for another signature, under a total. -/
def twoWaiting (g : Sig) (total : Nat) : State :=
  let s := ((waiting.setPort 1 (unit .occupied (some .P) (some { sess (some .waitingBudget) none (some .P) with
    target := some g, current := some ⟨g, .evaluate⟩ }))).setGrant 1 500).setQueue [⟨0, .F, 1000⟩, ⟨1, g, 1000⟩]
  { s with budget := { s.budget with total := total } }

/-- What holds of the two ports and of a port at reset holds of every port. -/
theorem twoWaiting_each {P : Port → Nat → Prop} (g : Sig) (total : Nat)
    (h : ∀ k : Sig, P (unit .occupied (some .P) (some { sess (some .waitingBudget) none (some .P) with
      target := some k, current := some ⟨k, .evaluate⟩ })) 500) (hr : P (Port.reset quiet) 0) (p : PortId) :
    P ((twoWaiting g total).port p) ((twoWaiting g total).grant p) :=
  match p with
  | 0 => h .F
  | 1 => h g
  | 2 => hr
  | 3 => hr
  | 4 => hr
  | 5 => hr
  | 6 => hr
  | 7 => hr

theorem laws_twoWaiting (g : Sig) (total : Nat) :
    QueueLaw (twoWaiting g total) ∧ SessionLaw (twoWaiting g total) ∧ ExactLaw (twoWaiting g total) := by
  refine ⟨⟨(by decide : ([0, 1] : List PortId).Nodup), fun p => ?_⟩,
    twoWaiting_each (P := fun q _ => q.sessionLaw) g total (fun k => by simp [Port.sessionLaw, unit, sess])
      (by simp [Port.sessionLaw, Port.reset]),
    twoWaiting_each (P := fun q m => q.exactLaw m) g total (fun k => by simp [Port.exactLaw, unit, Port.reset, Sig.offered])
      (by simp [Port.exactLaw, Port.reset])⟩
  have out : ∀ p, (twoWaiting g total).queued p = false → (twoWaiting g total).phase p = none →
      ((twoWaiting g total).queued p = true ↔ (twoWaiting g total).phase p = some .waitingBudget) := by
    intro p a b
    simp [a, b]
  match p with
  | 0 => exact iff_of_true rfl rfl
  | 1 => exact iff_of_true rfl rfl
  | 2 => exact out 2 rfl rfl
  | 3 => exact out 3 rfl rfl
  | 4 => exact out 4 rfl rfl
  | 5 => exact out 5 rfl rfl
  | 6 => exact out 6 rfl rfl
  | 7 => exact out 7 rfl rfl

/-- Port 0's wait expires: port 1 behind it is served when it fits, and stays at the head when it does not. -/
theorem witness_WaitExpiry_service :
    (twoWaiting .L 4000).budget.pendingTotal = none ∧ (twoWaiting .L 4000).queued 0 = true
      ∧ (after State.reset (exec (.budgetWaitExpiry 0) (twoWaiting .L 4000))).grant 1 = 1000
      ∧ (after State.reset (exec (.budgetWaitExpiry 0) (twoWaiting .L 4000))).queued 1 = false
      ∧ (after State.reset (exec (.budgetWaitExpiry 0) (twoWaiting .F 2800))).grant 1 = 500
      ∧ (after State.reset (exec (.budgetWaitExpiry 0) (twoWaiting .F 2800))).budget.queue.head? = some ⟨1, .F, 1000⟩ := by
  decide +kernel

/-- A fixed port whose link timer has run out. -/
def linkLost (count : Nat) : State :=
  small { fixedUnit .occupied (some .P) (some (sess (some .steady) none (some .P))) with
    recoveryCount := count, timers := { Timers.stopped with link := some 0 } } 500

theorem witness_LinkExpiry :
    LinesLaw (linkLost 2) ∧ LinesLaw (linkLost 3) ∧ ((linkLost 2).port 0).timers.link.isSome = true
      ∧ ((linkLost 2).port 0).fixed = true ∧ ((linkLost 2).port 0).state = .occupied
      ∧ ((linkLost 2).port 0).recoveryCount < ((linkLost 2).port 0).policy.recoveryLimit
      ∧ ((linkLost 3).port 0).policy.recoveryLimit ≤ ((linkLost 3).port 0).recoveryCount :=
  ⟨lines_small _ (by simp [Port.linesLaw, fixedUnit, unit, Port.reset, PortState.isOn, quiet]),
    lines_small _ (by simp [Port.linesLaw, fixedUnit, unit, Port.reset, PortState.isOn, quiet]), by decide +kernel⟩

/-- Port 0 about to take a step toward F, with a budget total. -/
def stepping (total : Nat) : State :=
  let s := small (unit .occupied (some .P) (some { sess (some .steady) none (some .P) with
    remaining := [⟨.F, .evaluate⟩, ⟨.L, .evaluate⟩] })) 500
  { s with budget := { s.budget with total := total } }

theorem witness_TakingAStep :
    ((stepping 4000).port 0).headBlocked = false ∧ ((stepping 4000).port 0).switchOn = true
      ∧ ((stepping 4000).port 0).rePresent = none
      ∧ (((stepping 4000).port 0).session.any fun x => !x.suspended && x.remaining.head? == some ⟨.F, .evaluate⟩) = true
      ∧ ((stepping 4000).port 0).presented ≠ some .F ∧ (stepping 4000).upgradeFits 0 .F = true
      ∧ (stepping 2400).upgradeFits 0 .F = true ∧ (stepping 2399).upgradeFits 0 .F = false
      ∧ (stepping 4000).grant 0 < Sig.F.offered ∧ Sig.P.offered ≤ (stepping 4000).grant 0 := by
  decide +kernel

theorem witness_queue_service :
    State.reset.budget.queue = []
      ∧ ((service 2399 none).budget.queue.head? = some ⟨0, .F, 1000⟩
        ∧ (service 2399 none).budget.total - (service 2399 none).sumGrants < Sig.F.offered - (service 2399 none).grant 0)
      ∧ (Sig.F.offered - (service 2400 none).grant 0 ≤ (service 2400 none).budget.total - (service 2400 none).sumGrants
        ∧ ((service 2400 none).port 0).switchOn = true ∧ ((service 2400 none).port 0).session.isSome = true
        ∧ ((service 2400 none).port 0).pins.hen = false)
      ∧ (service 2400 (some 4000)).budget.pendingTotal = some 4000 ∧ (∀ q, (service 2400 (some 4000)).victim q = false)
      ∧ waitingBehind.budget.pendingTotal.isSome = true ∧ waitingBehind.victim 1 = true := by
  decide +kernel

/-! The invariants: a state of which each holds, and the step it takes. -/

theorem step_answers (s : State) (h : s.pending = [.getGlobals 1]) : ∃ t, step s = .next t := by
  unfold step
  rw [h]
  exact ⟨_, rfl⟩

/-- A STEADY session with a command waiting. -/
def inSteady : State := { steady with pending := [.getGlobals 1] }

/-- The law of service holds with a blocked head, with a change pending on a victim, and at rest. -/
theorem witness_ServiceLaw :
    ServiceLaw (twoWaiting .L 2899) ∧ ServiceLaw (victimEnding true) ∧ ServiceLaw inSteady := by
  refine ⟨⟨by decide +kernel, by decide +kernel, fun _ e h => ?_⟩, ⟨by decide +kernel, by decide +kernel, fun h => by cases h⟩,
    ⟨by decide +kernel, by decide +kernel, fun _ e h => by cases h⟩⟩
  cases h
  decide +kernel

theorem witness_invariants :
    LinesLaw inSteady ∧ ProbeLaw inSteady ∧ MemoryLaw inSteady ∧ SessionLaw inSteady ∧ QueueLaw inSteady
      ∧ CoverLaw inSteady ∧ NeedLaw inSteady ∧ ExactLaw inSteady ∧ PolicyLaw inSteady ∧ NoticeLaw inSteady ∧ GrantLaw inSteady ∧ UsersLaw inSteady
      ∧ ∃ t, step inSteady = .next t := by
  have hg : ∀ p, p ≠ 0 → (inSteady.port p).state = .disabled ∧ inSteady.grant p = 0 := by decide +kernel
  have hn : ∀ n : SlotId, inSteady.entry n = none := by decide +kernel
  refine ⟨?_, ?_, memory_reset, ?_, ?_, ?_, fun _ h => absurd h List.not_mem_nil, ?_, ?_, ⟨by decide +kernel, by decide +kernel, by decide⟩,
    ⟨by decide +kernel, by decide, ?_, ?_, fun total h => by cases h⟩, ⟨fun n e he => ?_, fun p x n hx hb => ?_⟩,
    step_answers _ rfl⟩
  · exact lines_small 500 (lines_unit .occupied (some (sess (some .steady) none (some .P))))
  · exact probe_small 500 (q := unit .occupied (some .P) (some (sess (some .steady) none (some .P))))
      (by simp [Port.probeLaw, unit, Port.reset, Timers.stopped])
  · exact session_small 500 (q := unit .occupied (some .P) (some (sess (some .steady) none (some .P))))
      (by simp [Port.sessionLaw, unit, sess])
  · exact queue_small 500 (q := unit .occupied (some .P) (some (sess (some .steady) none (some .P))))
      (fun x hx => by cases hx; decide)
  · exact cover_small (g := 500) (q := unit .occupied (some .P) (some (sess (some .steady) none (some .P))))
      (by simp [Port.coverLaw, unit, Port.reset, Sig.offered, Session.suspended, sess])
  · exact exact_small (g := 500) (q := unit .occupied (some .P) (some (sess (some .steady) none (some .P))))
      (by simp [Port.exactLaw, unit, Port.reset, Sig.offered])
  · exact policy_small 500 (q := unit .occupied (some .P) (some (sess (some .steady) none (some .P))))
      (policy_reset_inRange true) (by decide)
  · intro p h
    by_cases e : p = 0
    · subst e
      cases h
    · exact (hg p e).2
  · intro p h
    by_cases e : p = 0
    · subst e
      decide +kernel
    · exact absurd (hg p e).1 h
  · rw [hn n] at he
    cases he
  · have hx' : ∀ p, ((inSteady.port p).session.all fun x => x.boundSlot.isNone) = true := by decide +kernel
    have h1 := hx' p
    rw [hx] at h1
    simp [hb] at h1

end Sys2Proof.Tests
end

section
/-! SUPPORT and PROOFS. The derived values of an entry (R74, R75, R45) and the reads of the Profile Memory (R90, R91, R98). -/

namespace Sys2Proof.Machine

/-! ### The preferred signature -/

/-- The signatures with tallies are all but P (R70). -/
theorem mem_judgedSigs (g : Sig) : g ∈ judgedSigs ↔ g ≠ .P := by
  cases g <;> decide

/-- The signatures with tallies stand from the highest rank down (R74). -/
theorem judgedSigs_descending : judgedSigs.Pairwise fun g h => h.rank < g.rank := by
  decide

/-- In a list that descends in rank, the first signature that passes a test is the highest in rank that does. -/
theorem find?_eq_some_of_descending {l : List Sig} (hl : l.Pairwise fun g h => h.rank < g.rank) (test : Sig → Bool)
    (g : Sig) : l.find? test = some g ↔ g ∈ l ∧ test g = true ∧ ∀ h ∈ l, g.rank < h.rank → test h = false := by
  induction l with
  | nil => simp
  | cons x xs ih =>
    obtain ⟨hx, hxs⟩ := List.pairwise_cons.mp hl
    cases ht : test x with
    | true =>
      rw [List.find?_cons_of_pos ht, Option.some_inj]
      constructor
      · rintro rfl
        refine ⟨List.mem_cons_self, ht, fun h hm hlt => ?_⟩
        rcases List.mem_cons.mp hm with rfl | hm
        · exact absurd hlt (Nat.lt_irrefl _)
        · exact absurd hlt (Nat.lt_asymm (hx h hm))
      · rintro ⟨hm, -, hhigh⟩
        rcases List.mem_cons.mp hm with rfl | hm
        · rfl
        · have hf := hhigh x List.mem_cons_self (hx g hm)
          simp [ht] at hf
    | false =>
      rw [List.find?_cons_of_neg (by simp [ht]), ih hxs]
      have hne : test g = true → g ≠ x := by
        rintro hg rfl
        simp [ht] at hg
      constructor
      · rintro ⟨hm, hg, hhigh⟩
        refine ⟨List.mem_cons_of_mem x hm, hg, List.forall_mem_cons.mpr ⟨fun _ => ht, hhigh⟩⟩
      · rintro ⟨hm, hg, hhigh⟩
        exact ⟨(List.mem_cons.mp hm).resolve_left (hne hg), hg, (List.forall_mem_cons.mp hhigh).2⟩

/-- The preferred signature is the highest in rank whose accepted count exceeds its rejected count (R74). -/
theorem Entry.preferred_eq_some (e : Entry) (g : Sig) :
    e.preferred = some g ↔ g ≠ .P ∧ (e.tallies.get g).rej < (e.tallies.get g).acc
      ∧ ∀ h : Sig, h ≠ .P → g.rank < h.rank → (e.tallies.get h).acc ≤ (e.tallies.get h).rej := by
  unfold Entry.preferred
  rw [find?_eq_some_of_descending judgedSigs_descending]
  simp only [mem_judgedSigs, decide_eq_true_eq, decide_eq_false_iff_not, Nat.not_lt]

/-- With no signature accepted more often than rejected, none is preferred (R74). -/
theorem Entry.preferred_eq_none (e : Entry) :
    e.preferred = none ↔ ∀ h : Sig, h ≠ .P → (e.tallies.get h).acc ≤ (e.tallies.get h).rej := by
  unfold Entry.preferred
  simp only [List.find?_eq_none, mem_judgedSigs, decide_eq_true_eq, Nat.not_lt]

/-- The pin has no part in the preferred signature (R74). -/
@[simp] theorem Entry.preferred_pinned (e : Entry) (pin : Option Sig) : { e with pinned := pin }.preferred = e.preferred :=
  rfl

/-! ### The state of an entry -/

/-- Tallies are the opening ones when every count is 0 (R72). -/
theorem Tallies.eq_zero_iff (t : Tallies) : t = Tallies.zero ↔ ∀ h : Sig, (t.get h).acc = 0 ∧ (t.get h).rej = 0 := by
  constructor
  · rintro rfl h
    cases h <;> exact ⟨rfl, rfl⟩
  · intro h
    obtain ⟨⟨la, lr⟩, ⟨aa, ar⟩, ⟨ba, br⟩, ⟨ha, hr⟩, ⟨fa, fr⟩⟩ := t
    obtain ⟨rfl, rfl⟩ : la = 0 ∧ lr = 0 := h .L
    obtain ⟨rfl, rfl⟩ : aa = 0 ∧ ar = 0 := h .A
    obtain ⟨rfl, rfl⟩ : ba = 0 ∧ br = 0 := h .B
    obtain ⟨rfl, rfl⟩ : ha = 0 ∧ hr = 0 := h .H
    obtain ⟨rfl, rfl⟩ : fa = 0 ∧ fr = 0 := h .F
    rfl

/-- One count above 0 is enough for tallies other than the opening ones. -/
theorem Tallies.ne_zero {t : Tallies} (h : ∃ g : Sig, (t.get g).acc ≠ 0 ∨ (t.get g).rej ≠ 0) : t ≠ Tallies.zero := by
  obtain ⟨g, hg⟩ := h
  intro hz
  obtain ⟨hacc, hrej⟩ := (Tallies.eq_zero_iff t).mp hz g
  exact hg.elim (absurd hacc) (absurd hrej)

section
variable {e : Entry} (threshold : Nat)

/-- The first row of R75: a pin decides alone. -/
theorem Entry.state_pinned (h : e.pinned.isSome = true) : e.state threshold = .pinned :=
  if_pos h

/-- The second row of R75: no pin and nothing counted. -/
theorem Entry.state_new (hp : e.pinned = none) (ht : e.tallies = Tallies.zero) : e.state threshold = .new := by
  simp [Entry.state, hp, ht]

/-- The third and fourth rows of R75 with a preferred signature: its lead is held against the threshold. -/
theorem Entry.state_preferred {g : Sig} (hp : e.pinned = none) (ht : e.tallies ≠ Tallies.zero)
    (hg : e.preferred = some g) :
    e.state threshold = if threshold ≤ (e.tallies.get g).acc - (e.tallies.get g).rej then .settled else .tentative := by
  simp [Entry.state, hp, ht, hg]

/-- The fourth row of R75 without a preferred signature. -/
theorem Entry.state_unpreferred (hp : e.pinned = none) (ht : e.tallies ≠ Tallies.zero) (hg : e.preferred = none) :
    e.state threshold = .tentative := by
  simp [Entry.state, hp, ht, hg]

end

/-! ### The sequence of a PINNED entry -/

/-- Only P and A are data-compatible (R1). -/
theorem Sig.chargeOnly_eq_false (h : Sig) : h.chargeOnly = false ↔ h = .P ∨ h = .A := by
  cases h <;> decide

/-- A pin passes in CHARGE mode, or as P or A, and never above the maximum (R45). -/
theorem pinPasses_iff (policy : SessionPolicy) (m : Mode) (h : Sig) :
    pinPasses policy m h = true ↔ (m = .charge ∨ h = .P ∨ h = .A) ∧ h.rank ≤ policy.maxSig.rank := by
  simp only [pinPasses, Bool.and_eq_true, Bool.or_eq_true, Bool.not_eq_true', decide_eq_true_eq, Sig.chargeOnly_eq_false]

/-- A PINNED entry is ordered by its pin alone: one PRESENT step of it when it passes, else no step (R45). -/
theorem orderedSteps_pinned (policy : SessionPolicy) (m : Mode) (threshold : Nat) {e : Entry} {h : Sig}
    (hp : e.pinned = some h) :
    orderedSteps policy m threshold (some e) = if pinPasses policy m h = true then [⟨h, .present⟩] else [] := by
  have hs : e.state threshold = .pinned := Entry.state_pinned threshold (by simp [hp])
  simp only [orderedSteps, hs, hp]

/-! ### The entry record -/

/-- The record of a slot that holds an entry (R202). -/
theorem State.entryData_entry {s : State} {n : SlotId} {e : Entry} (he : s.entry n = some e) :
    s.entryData n =
      [BitVec.ofNat 8 n.val, (e.state s.memory.threshold).code, hiByte e.vendor, loByte e.vendor, hiByte e.product,
        loByte e.product, hiByte e.release, loByte e.release, sigCode e.pinned, sigCode e.preferred,
        BitVec.ofNat 8 e.users, e.tallies.l.byte, e.tallies.a.byte, e.tallies.b.byte, e.tallies.h.byte,
        e.tallies.f.byte] := by
  unfold State.entryData
  rw [he]
  rfl

/-- Settles O23: the rows of R74 and R75 one by one, and the pin's own sequence of R45. -/
theorem preferredSignatureAndEntryState : Obligations.PreferredSignatureAndEntryState := by
  unfold Obligations.PreferredSignatureAndEntryState
  intro s e g h threshold n policy m
  refine ⟨e.preferred_eq_some g, e.preferred_eq_none, e.preferred_pinned (some h), fun he => ?record, fun hp => ?sequence,
    Entry.state_pinned threshold, fun hp hz => Entry.state_new threshold hp ((Tallies.eq_zero_iff _).mpr hz),
    fun hp hc => Entry.state_preferred threshold hp (Tallies.ne_zero hc),
    fun hp hc => Entry.state_unpreferred threshold hp (Tallies.ne_zero hc)⟩
  case record =>
    rw [State.entryData_entry he]
    rfl
  case sequence =>
    simp only [orderedSteps_pinned policy m threshold hp, pinPasses_iff]

/-! ### Commands that only answer -/

/-- A command whose whole effect is a response leaves every block as it was (R193, R194). -/
theorem answers_of_exec {i : Instr} {s : State} {st : Status} {tag code : Byte} {data : List Byte}
    (h : exec i s = .next (s.respond st tag code data)) :
    ∃ t, exec i s = .next t ∧ SameBlocks s t ∧ Replied t st tag code data :=
  ⟨_, h, sameBlocks_respond s st tag code data, replied_respond s st tag code data⟩

/-! ### PM Lookup -/

/-- The lookup finds nothing when no slot holds the key (R90). -/
theorem ProfileMemory.find_eq_none {m : ProfileMemory} {v d : Half}
    (h : ∀ k, (m.entry k).all fun e => !(e.vendor == v && e.product == d)) : m.find v d = none := by
  refine List.find?_eq_none.mpr fun k _ => ?_
  have hk := h k
  cases he : m.entry k with
  | none => simp
  | some e =>
    rw [he, Option.all_some, Bool.not_eq_true'] at hk
    simp [Entry.hasKey, hk]

section
variable {s : State} (tag : Byte) (hr : s.host.inReset = false)
include hr

/-- With RST# high the command is taken (R186). -/
theorem exec_pmLookup (v d : Half) : exec (.pmLookup tag v d) s = .next (s.pmLookup tag v d) :=
  congrArg _ (State.taking_running s _ hr)

theorem exec_pmLookup_found {v d : Half} {n : SlotId} (hf : s.memory.find v d = some n) :
    exec (.pmLookup tag v d) s = .next (s.respond .ok tag 0x20 (s.entryData n)) := by
  rw [exec_pmLookup tag hr, State.pmLookup, hf]

theorem exec_pmLookup_absent {v d : Half} (hf : s.memory.find v d = none) :
    exec (.pmLookup tag v d) s = .next (s.respond .notFound tag 0x20 []) := by
  rw [exec_pmLookup tag hr, State.pmLookup, hf]
  rfl

end

/-- Settles O16: the key stands in one slot only (R71), so the lookup finds that slot, or none. -/
theorem pmLookupReturnsTheEntryOfTheKey : Obligations.PmLookupReturnsTheEntryOfTheKey := by
  unfold Obligations.PmLookupReturnsTheEntryOfTheKey
  intro s tag v d n hr hm
  refine ⟨?held, fun habsent => answers_of_exec (exec_pmLookup_absent tag hr (ProfileMemory.find_eq_none habsent))⟩
  case held =>
    rintro e he rfl rfl
    have hf : s.memory.find e.vendor e.product = some n := ProfileMemory.find_eq hm he
    obtain ⟨t, hx, hsame, hreply⟩ := answers_of_exec (exec_pmLookup_found tag hr hf)
    exact ⟨t, hx, hsame, hreply, State.entryData_entry he⟩

/-! ### PM Read -/

section
variable {s : State} (tag : Byte) (hr : s.host.inReset = false)
include hr

/-- With RST# high the command is taken (R186). -/
theorem exec_pmRead (b : Byte) : exec (.pmRead tag b) s = .next (s.pmRead tag b) :=
  congrArg _ (State.taking_running s _ hr)

theorem exec_pmRead_above {b : Byte} (hb : 47 < b.toNat) :
    exec (.pmRead tag b) s = .next (s.respond .badParam tag 0x21 []) := by
  rw [exec_pmRead tag hr, State.pmRead, slotOf_above b hb]
  rfl

theorem exec_pmRead_vacant {n : SlotId} (hn : s.entry n = none) :
    exec (.pmRead tag (BitVec.ofNat 8 n.val)) s = .next (s.respond .notFound tag 0x21 []) := by
  rw [exec_pmRead tag hr]
  simp [State.pmRead, State.refuse, hn]

theorem exec_pmRead_entry {n : SlotId} {e : Entry} (he : s.entry n = some e) :
    exec (.pmRead tag (BitVec.ofNat 8 n.val)) s = .next (s.respond .ok tag 0x21 (s.entryData n)) := by
  rw [exec_pmRead tag hr]
  simp [State.pmRead, he]

end

/-- Settles O17: the three outcomes of R91, by the slot number and what the slot holds. -/
theorem pmReadReturnsTheSlot : Obligations.PmReadReturnsTheSlot := by
  unfold Obligations.PmReadReturnsTheSlot
  intro s tag b n hr
  refine ⟨fun hb => answers_of_exec (exec_pmRead_above tag hr hb),
    fun hn => answers_of_exec (exec_pmRead_vacant tag hr hn), fun e he => ?_⟩
  rw [← State.entryData_entry he]
  exact answers_of_exec (exec_pmRead_entry tag hr he)

/-! ### PM Order -/

section
variable {s : State} (tag : Byte) (hr : s.host.inReset = false)
include hr

/-- With RST# high the command is taken (R186). -/
theorem exec_pmOrder (g : Byte) : exec (.pmOrder tag g) s = .next (s.pmOrder tag g) :=
  congrArg _ (State.taking_running s _ hr)

theorem exec_pmOrder_page {g : Byte} (hg : g.toNat ≤ 1) :
    exec (.pmOrder tag g) s = .next (s.respond .ok tag 0x27
      ([hiByte s.memory.orderCount, loByte s.memory.orderCount, BitVec.ofNat 8 s.memory.recency.length, g]
        ++ ((s.memory.recency.drop (24 * g.toNat)).take 24).map fun n => BitVec.ofNat 8 n.val)) := by
  rw [exec_pmOrder tag hr, State.pmOrder, if_pos hg]
  rfl

theorem exec_pmOrder_beyond {g : Byte} (hg : 1 < g.toNat) :
    exec (.pmOrder tag g) s = .next (s.respond .badParam tag 0x27 []) := by
  rw [exec_pmOrder tag hr, State.pmOrder, if_neg (Nat.not_le.mpr hg)]
  rfl

end

/-- Settles O18: pages 0 and 1 exist and no other (R98). -/
theorem pmOrderReturnsAPage : Obligations.PmOrderReturnsAPage := by
  unfold Obligations.PmOrderReturnsAPage
  intro s tag g hr
  exact ⟨fun hg => answers_of_exec (exec_pmOrder_page tag hr hg),
    fun hg => answers_of_exec (exec_pmOrder_beyond tag hr hg)⟩

end Sys2Proof.Machine
end

section
/-! SUPPORT and PROOFS. The two global settings: what a write and a reset make of them, and their read (R171 to
R173, R199). -/

namespace Sys2Proof.Machine

/-! ### The settings as a response carries them -/

/-- Settings written from a command's bytes are read back as these bytes (R172, R202). -/
theorem State.globalsData_writeGlobals (s : State) (a b : Byte) :
    (s.writeGlobals a.toNat b.toNat).globalsData = [a, b] := by
  simp [State.globalsData, State.writeGlobals, byteOf]

/-- The settings after a pin reset or a Reset Device (R100, R140, R171). -/
theorem State.globalsData_resetKeeping (s : State) : s.resetKeeping.globalsData = [3, 5] :=
  rfl

/-- The test of R172 on both bytes, in numbers. -/
theorem globalsValid_iff (a b : Byte) :
    globalsValid a b = true ↔ 2 ≤ a.toNat ∧ a.toNat ≤ 7 ∧ 1 ≤ b.toNat ∧ b.toNat ≤ 15 := by
  simp only [globalsValid, Bool.and_eq_true, decide_eq_true_eq, and_assoc]

/-! ### The commands with RST# high -/

section
variable {s : State} (tag : Byte) (hr : s.host.inReset = false)
include hr

theorem exec_getGlobals : exec (.getGlobals tag) s = .next (s.respond .ok tag 0x05 s.globalsData) :=
  congrArg _ (State.taking_running s _ hr)

theorem exec_setGlobals (a b : Byte) : exec (.setGlobals tag a b) s = .next (s.setGlobals tag a b) :=
  congrArg _ (State.taking_running s _ hr)

/-- A Set Globals answered with OK writes both settings and its response, nothing else (R172). -/
theorem exec_setGlobals_valid {a b : Byte} (hv : globalsValid a b = true) :
    exec (.setGlobals tag a b) s = .next ((s.writeGlobals a.toNat b.toNat).respondWith tag 0x04 fun t =>
      t.globalsData ++ [byteOf (s.memory.stateChanges s.memory.threshold a.toNat)]) := by
  rw [exec_setGlobals tag hr, State.setGlobals, if_pos hv]

/-- Reset Device writes its response after the reset (R199). -/
theorem exec_resetDevice : exec (.resetDevice tag) s = .next (s.resetKeeping.respond .ok tag 0x06 []) :=
  congrArg _ (State.taking_running s _ hr)

end

/-- A Get Globals taken after another event sees the settings that this event left (R173). -/
theorem getGlobals_after (tag : Byte) {i : Instr} {s t : State} {data : List Byte} (hi : exec i s = .next t)
    (hr : t.host.inReset = false) (hd : t.globalsData = data) :
    ∃ t, exec i s = .next t ∧ ∃ u, exec (.getGlobals tag) t = .next u ∧ Replied u .ok tag 0x05 data := by
  rw [← hd]
  exact ⟨t, hi, _, exec_getGlobals tag hr, replied_respond t .ok tag 0x05 t.globalsData⟩

/-- Settles O9: the read answers with the settings as they stand (R173), and these are what a write, a Reset Device or
a pin reset last made of them. -/
theorem getGlobalsReturnsBothSettings : Obligations.GetGlobalsReturnsBothSettings := by
  unfold Obligations.GetGlobalsReturnsBothSettings
  intro s tag tag2 a b addr
  refine ⟨fun hr => ?asTheyStand, fun hr hv => ?afterSetGlobals, fun hr => ?afterResetDevice, ?afterPinReset⟩
  case asTheyStand => exact answers_of_exec (exec_getGlobals tag hr)
  case afterSetGlobals =>
    have hvalid := (globalsValid_iff a b).mpr hv
    exact getGlobals_after tag (exec_setGlobals_valid tag2 hr hvalid) hr (s.globalsData_writeGlobals a b)
  case afterResetDevice => exact getGlobals_after tag (exec_resetDevice tag2 hr) hr s.globalsData_resetKeeping
  case afterPinReset => exact ⟨_, rfl, getGlobals_after tag rfl rfl s.globalsData_resetKeeping⟩

end Sys2Proof.Machine
end

section
/-! SUPPORT and PROOFS. The commands on notices: the read, the acknowledge and the mask (R181 to R184). -/

namespace Sys2Proof.Machine

/-! ### The tests and the line -/

/-- A set lies within an allowed one when it names nothing outside it (R182, R184). -/
theorem kindsWithin_iff (kinds allowed : Half) : kindsWithin kinds allowed = true ↔ kinds &&& ~~~allowed = 0 :=
  beq_iff_eq

theorem kindsWithin_eq_false (kinds allowed : Half) : kindsWithin kinds allowed = false ↔ kinds &&& ~~~allowed ≠ 0 :=
  beq_eq_false_iff_ne

/-- While ALERT# follows the unit, it is low exactly while some group holds an unmasked pending kind (R179). -/
theorem State.alertLow_iff {s : State} (h : s.notices.alertLow = s.notices.unmaskedPending) :
    s.notices.alertLow = true ↔ ∃ g : GroupId, (s.group g).pending &&& ~~~s.notices.mask ≠ 0 := by
  rw [h]
  exact s.notices.unmaskedPending_iff

/-! ### Read Notices -/

/-- The groups' bytes, three for each (R202). -/
theorem length_groupBytes (l : List Group) : (l.flatMap (·.bytes)).length = 3 * l.length := by
  induction l with
  | nil => rfl
  | cons x xs ih =>
    have hx : x.bytes.length = 3 := rfl
    rw [List.flatMap_cons, List.length_append, List.length_cons, ih, hx]
    omega

/-- Byte `k` of group `i` stands at `3 * i + k` (R202). -/
theorem getD_groupBytes (l : List Group) (i k : Nat) (hi : i < l.length) (hk : k < 3) :
    (l.flatMap (·.bytes)).getD (3 * i + k) 0 = l[i].bytes.getD k 0 := by
  induction l generalizing i with
  | nil => exact absurd hi (Nat.not_lt_zero i)
  | cons x xs ih =>
    have hx : x.bytes.length = 3 := rfl
    rw [List.flatMap_cons]
    cases i with
    | zero => rw [List.getD_append _ _ _ _ (by omega), Nat.mul_zero, Nat.zero_add, List.getElem_cons_zero]
    | succ i =>
      rw [List.getD_append_right _ _ _ _ (by omega), hx, show 3 * (i + 1) + k - 3 = 3 * i + k by omega,
        ih i (Nat.lt_of_succ_lt_succ hi), List.getElem_cons_succ]

section
variable (s : State)

/-- The nine groups take the first 27 bytes of a Read Notices (R202). -/
theorem State.length_noticeGroups : (s.notices.groups.toList.flatMap (·.bytes)).length = 27 := by
  rw [length_groupBytes, Vector.length_toList]

/-- The last three bytes of a Read Notices are the mask and the line, as Set Notice Mask sends them (R202). -/
theorem State.noticeData_eq : s.noticeData = s.notices.groups.toList.flatMap (·.bytes) ++ s.maskData :=
  List.append_assoc ..

theorem State.length_noticeData : s.noticeData.length = 30 := by
  rw [State.noticeData_eq, List.length_append, State.length_noticeGroups]
  rfl

theorem State.getD_noticeData_group (g : GroupId) (k : Nat) (hk : k < 3) :
    s.noticeData.getD (3 * g.val + k) 0 = (s.group g).bytes.getD k 0 := by
  have hlen := s.length_noticeGroups
  have hg := g.isLt
  rw [State.noticeData_eq, List.getD_append _ _ _ _ (by omega), getD_groupBytes _ _ _ (by simp) hk,
    Vector.getElem_toList]
  rfl

theorem State.getD_noticeData_tail (k : Nat) : s.noticeData.getD (27 + k) 0 = s.maskData.getD k 0 := by
  rw [State.noticeData_eq, List.getD_append_right _ _ _ _ (by rw [State.length_noticeGroups]; omega),
    State.length_noticeGroups, Nat.add_sub_cancel_left]

end

/-- With RST# high the command is taken (R186). -/
theorem exec_readNotices {s : State} (tag : Byte) (hr : s.host.inReset = false) :
    exec (.readNotices tag) s = .next (s.respond .ok tag 0x30 s.noticeData) :=
  congrArg _ (State.taking_running s _ hr)

/-- Settles O13: the command only answers, and its bytes are the groups' records followed by the mask and the line. -/
theorem readNoticesReportsEveryGroup : Obligations.ReadNoticesReportsEveryGroup := by
  unfold Obligations.ReadNoticesReportsEveryGroup
  intro s tag hr
  obtain ⟨t, hx, hsame, hreply⟩ := answers_of_exec (exec_readNotices tag hr)
  refine ⟨t, hx, hsame, hreply, s.length_noticeData, fun g => ⟨?pending, ?epoch⟩, ?mask, ?line⟩
  case pending =>
    have hhi := s.getD_noticeData_group g 0 (by decide)
    have hlo := s.getD_noticeData_group g 1 (by decide)
    rw [Nat.add_zero] at hhi
    rw [hhi, hlo]
    exact halfOf_bytes (s.group g).pending
  case epoch => exact s.getD_noticeData_group g 2 (by decide)
  case mask =>
    rw [s.getD_noticeData_tail 0, s.getD_noticeData_tail 1]
    exact halfOf_bytes s.notices.mask
  case line => exact s.getD_noticeData_tail 2

/-! ### Ack Notices -/

/-- The data of an acknowledge, byte by byte (R202). -/
theorem State.ackData_eq (s : State) (g : GroupId) (removed : Half) :
    s.ackData g removed = [BitVec.ofNat 8 g.val, hiByte (s.group g).pending, loByte (s.group g).pending,
      (s.group g).epoch, hiByte removed, loByte removed] :=
  rfl

section
variable (s : State) (g : GroupId) (kinds : Half)

theorem State.group_clearNotices_same :
    (s.clearNotices g kinds).group g = { pending := (s.group g).pending &&& ~~~kinds, epoch := (s.group g).epoch } := by
  rw [State.group_clearNotices, if_pos rfl]

theorem State.group_clearNotices_ne {h : GroupId} (hne : h ≠ g) : (s.clearNotices g kinds).group h = s.group h := by
  rw [State.group_clearNotices, if_neg hne]

/-- An acknowledge leaves ALERT# low exactly while some group still holds an unmasked pending kind (R179, R182). -/
theorem State.alertLow_clearNotices :
    (s.clearNotices g kinds).notices.alertLow = true
      ↔ ∃ h : GroupId, ((s.clearNotices g kinds).group h).pending &&& ~~~s.notices.mask ≠ 0 :=
  State.alertLow_iff (s.notices.alert_clear g kinds)

end

section
variable {s : State} (tag : Byte) (hr : s.host.inReset = false)
include hr

/-- With RST# high the command is taken (R186). -/
theorem exec_ackNotices (b : Byte) (kinds : Half) (epoch : Byte) :
    exec (.ackNotices tag b kinds epoch) s = .next (s.ackNotices tag b kinds epoch) :=
  congrArg _ (State.taking_running s _ hr)

theorem exec_ackNotices_above {b : Byte} (hb : 8 < b.toNat) (kinds : Half) (epoch : Byte) :
    exec (.ackNotices tag b kinds epoch) s = .next (s.respond .badParam tag 0x31 []) := by
  rw [exec_ackNotices tag hr, State.ackNotices, groupOf_above b hb]
  rfl

theorem exec_ackNotices_foreign {g : GroupId} {kinds : Half} (hk : kinds &&& ~~~groupKinds g ≠ 0) (epoch : Byte) :
    exec (.ackNotices tag (BitVec.ofNat 8 g.val) kinds epoch) s = .next (s.respond .badParam tag 0x31 []) := by
  rw [exec_ackNotices tag hr]
  simp [State.ackNotices, State.refuse, (kindsWithin_eq_false _ _).mpr hk]

theorem exec_ackNotices_within {g : GroupId} {kinds : Half} (hk : kinds &&& ~~~groupKinds g = 0) (epoch : Byte) :
    exec (.ackNotices tag (BitVec.ofNat 8 g.val) kinds epoch) s = .next (s.acknowledge tag g kinds epoch) := by
  rw [exec_ackNotices tag hr]
  simp [State.ackNotices, (kindsWithin_iff _ _).mpr hk]

/-- The group's own epoch clears the kinds, and the response shows the group as it then is (R182). -/
theorem exec_ackNotices_current {g : GroupId} {kinds : Half} (hk : kinds &&& ~~~groupKinds g = 0) :
    exec (.ackNotices tag (BitVec.ofNat 8 g.val) kinds (s.group g).epoch) s
      = .next ((s.clearNotices g kinds).respond .ok tag 0x31
          ((s.clearNotices g kinds).ackData g (kinds &&& (s.group g).pending))) := by
  rw [exec_ackNotices_within tag hr hk, State.acknowledge, if_pos rfl]
  rfl

/-- Any other epoch is stale: the response shows the group as it stands and removes nothing (R182). -/
theorem exec_ackNotices_stale {g : GroupId} {kinds : Half} (hk : kinds &&& ~~~groupKinds g = 0) {epoch : Byte}
    (he : epoch ≠ (s.group g).epoch) :
    exec (.ackNotices tag (BitVec.ofNat 8 g.val) kinds epoch) s = .next (s.respond .stale tag 0x31 (s.ackData g 0)) := by
  rw [exec_ackNotices_within tag hr hk, State.acknowledge, if_neg he]

end

/-- Settles O14: the four outcomes of R182, by the group, the kinds and the epoch. -/
theorem ackNoticesClearsByEpoch : Obligations.AckNoticesClearsByEpoch := by
  unfold Obligations.AckNoticesClearsByEpoch
  intro s tag b g kinds epoch hr
  refine ⟨fun hb => answers_of_exec (exec_ackNotices_above tag hr hb kinds epoch),
    fun hk => answers_of_exec (exec_ackNotices_foreign tag hr hk epoch), ?current,
    fun hk he => answers_of_exec (exec_ackNotices_stale tag hr hk he)⟩
  case current =>
    rintro hk rfl
    refine ⟨_, exec_ackNotices_current tag hr hk, s.group_clearNotices_same g kinds,
      fun h hne => s.group_clearNotices_ne g kinds hne, rfl, s.alertLow_clearNotices g kinds, rfl, rfl, rfl, rfl, ?_⟩
    have hepoch : ((s.clearNotices g kinds).group g).epoch = (s.group g).epoch := by
      rw [State.group_clearNotices_same]
    rw [State.ackData_eq, hepoch]
    exact replied_respond _ _ _ _ _

/-! ### Set Notice Mask -/

section
variable {s : State} (tag : Byte) (hr : s.host.inReset = false)
include hr

/-- With RST# high the command is taken (R186). -/
theorem exec_setNoticeMask (kinds : Half) :
    exec (.setNoticeMask tag kinds) s = .next (s.setNoticeMask tag kinds) :=
  congrArg _ (State.taking_running s _ hr)

/-- A set of existing kinds becomes the mask, and the response shows the unit as it then is (R184). -/
theorem exec_setNoticeMask_known {kinds : Half} (hk : kinds &&& ~~~allKinds = 0) :
    exec (.setNoticeMask tag kinds) s
      = .next ({ s with notices := s.notices.setMask kinds }.respondWith tag 0x32 State.maskData) := by
  rw [exec_setNoticeMask tag hr, State.setNoticeMask, if_pos ((kindsWithin_iff _ _).mpr hk)]

theorem exec_setNoticeMask_unknown {kinds : Half} (hk : kinds &&& ~~~allKinds ≠ 0) :
    exec (.setNoticeMask tag kinds) s = .next (s.respond .badParam tag 0x32 []) := by
  rw [exec_setNoticeMask tag hr, State.setNoticeMask, (kindsWithin_eq_false _ _).mpr hk]
  rfl

end

/-- A new mask leaves ALERT# low exactly while some group holds a kind outside it (R179, R184). -/
theorem State.alertLow_setMask (s : State) (kinds : Half) :
    (s.notices.setMask kinds).alertLow = true ↔ ∃ g : GroupId, (s.group g).pending &&& ~~~kinds ≠ 0 :=
  State.alertLow_iff (s := { s with notices := s.notices.setMask kinds }) (s.notices.alert_setMask kinds)

/-- Settles O15: the two outcomes of R184, by whether the set names an unknown kind. -/
theorem setNoticeMaskReplacesTheMask : Obligations.SetNoticeMaskReplacesTheMask := by
  unfold Obligations.SetNoticeMaskReplacesTheMask
  intro s tag kinds hr
  exact ⟨fun hk => ⟨_, exec_setNoticeMask_known tag hr hk, rfl, fun _ => rfl, s.alertLow_setMask kinds, rfl, rfl, rfl, rfl,
      replied_respond _ .ok tag 0x32 _⟩,
    fun hk => answers_of_exec (exec_setNoticeMask_unknown tag hr hk)⟩

end Sys2Proof.Machine
end

section
/-! SUPPORT and PROOFS. The host port's CRC-8 and the frames it closes (R188, R192, R194), and Get Info (R197). -/

namespace Sys2Proof.Machine

/-! ### The CRC-8 register -/

/-- The bit shifted out is the register's bit 7 (R192). -/
theorem crcShift_eq (r : Byte) : crcShift r = if r.getLsbD 7 then (r <<< 1) ^^^ 0x07 else r <<< 1 := by
  rw [crcShift, BitVec.msb_eq_getLsbD_last]
  rfl

/-- A run followed by its own CRC leaves the register empty: the last byte meets a register equal to it (R192). -/
theorem crc8_append_self (bytes : List Byte) : crc8 (bytes ++ [crc8 bytes]) = 0 := by
  rw [crc8_append, crcByte_self]
  rfl

/-- The check value of R192: the CRC over the ASCII digits 1 to 9. -/
theorem crc8_nineDigits : crc8 [0x31, 0x32, 0x33, 0x34, 0x35, 0x36, 0x37, 0x38, 0x39] = 0xF4 := by
  decide +kernel

/-! ### The two kinds of frame -/

/-- A host command's frame is its tag, code, length and parameters, closed by their CRC (R188). -/
theorem encodeFrame_of_encodeCommand {i : Instr} {c : Byte × Byte × List Byte} (h : encodeCommand i = some c) :
    encodeFrame i = some ((c.1 :: c.2.1 :: BitVec.ofNat 8 c.2.2.length :: c.2.2)
      ++ [crc8 (c.1 :: c.2.1 :: BitVec.ofNat 8 c.2.2.length :: c.2.2)]) := by
  rw [encodeFrame, h]
  rfl

/-- A response's frame is its status, tag, code, length and data, closed by their CRC (R194). -/
theorem Response.bytes_eq (resp : Response) :
    resp.bytes = (statusCode resp.status :: resp.tag :: resp.code :: BitVec.ofNat 8 resp.data.length :: resp.data)
      ++ [crc8 (statusCode resp.status :: resp.tag :: resp.code :: BitVec.ofNat 8 resp.data.length :: resp.data)] :=
  rfl

/-- The command frame of R192's example: Get Globals with tag 01h. -/
theorem encodeFrame_getGlobals_example : encodeFrame (.getGlobals 0x01) = some [0x01, 0x05, 0x00, 0x2A] := by
  have hcrc : crc8 [0x01, 0x05, 0x00] = 0x2A := by decide +kernel
  rw [← hcrc]
  exact encodeFrame_of_encodeCommand (i := .getGlobals 0x01) (c := (0x01, 0x05, [])) rfl

/-- The response frame of R192's example: the two settings as a reset leaves them. -/
theorem Response.bytes_getGlobals_example :
    Response.bytes ⟨.ok, 0x01, 0x05, [3, 5]⟩ = [0x00, 0x01, 0x05, 0x02, 0x03, 0x05, 0xDE] := by
  have hcrc : crc8 [0x00, 0x01, 0x05, 0x02, 0x03, 0x05] = 0xDE := by decide +kernel
  rw [← hcrc]
  exact Response.bytes_eq _

/-- Settles O32: the register's start, byte and shift, the run closed by its own CRC, and the two kinds of frame, with
the check value and the example frames of R192. -/
theorem crcIsTheCrc8OfTheFrame : Obligations.CrcIsTheCrc8OfTheFrame := by
  unfold Obligations.CrcIsTheCrc8OfTheFrame
  intro bytes r b i resp
  exact ⟨rfl, crc8_append bytes b, rfl, crcShift_eq r, crc8_nineDigits, crc8_append_self bytes,
    fun _ hc => encodeFrame_of_encodeCommand hc, resp.bytes_eq, encodeFrame_getGlobals_example,
    Response.bytes_getGlobals_example⟩

/-! ### Get Info -/

/-- The ten bytes of Get Info end with the 7-bit bus address in use (R197, R202). -/
theorem State.infoData_eq (s : State) :
    s.infoData = [0x08, 0x40, 0x44, 0x01, 8, 48, 8, 32, 40, s.host.address.setWidth 8] := by
  rw [State.infoData, byteOf, BitVec.ofNat_toNat]

/-- With RST# high the command is taken and only answers (R186, R197). -/
theorem exec_getInfo {s : State} (tag : Byte) (hr : s.host.inReset = false) :
    exec (.getInfo tag) s = .next (s.respond .ok tag 0x01 s.infoData) :=
  congrArg _ (State.taking_running s _ hr)

/-- Settles O6: the command's whole effect is its response, and the data are the fixed facts and the address. -/
theorem getInfoReturnsTheFixedFacts : Obligations.GetInfoReturnsTheFixedFacts := by
  unfold Obligations.GetInfoReturnsTheFixedFacts
  intro s tag hr
  rw [← s.infoData_eq]
  exact answers_of_exec (exec_getInfo tag hr)

end Sys2Proof.Machine
end

section
/-! SUPPORT and PROOFS. `Run s t`: `t` comes from `s` by the updates that a step is made of, each with what it keeps of the
laws. One lemma says that every step is a run of them; the laws of the lines, the notices, the Profile Memory, the users and
the policy records are then carried through one update at a time (spec/01, spec/04, spec/08, spec/09). -/

namespace Sys2Proof.Machine

/-! ### What one port unit keeps -/

/-- The slot that the session of a port is bound to (R73). -/
def Port.bound (q : Port) : Option SlotId := q.session.bind (·.boundSlot)

/-- R22, R38 read one way: a session stands only in OCCUPIED and HOLD, and on a fixed port in POWERING and RECOVERY. -/
def Port.seated (q : Port) : Prop :=
  q.session.isSome = true →
    q.state = .occupied ∨ q.state = .hold ∨ (q.fixed = true ∧ (q.state = .powering ∨ q.state = .recovery))

/-- R161, R162 for one port. -/
def Port.policyLaw (q : Port) : Prop := q.policy.inRange ∧ (q.policy.enabled = true ↔ q.state ≠ .disabled)

/-- Every session stands where one may. -/
def Seated (s : State) : Prop := ∀ p, (s.port p).seated

theorem SessionLaw.seated {s : State} (h : SessionLaw s) : Seated s := by
  intro p hx
  have hp := h p
  unfold Port.sessionLaw at hp
  cases hs : (s.port p).session with
  | none => simp [hs] at hx
  | some x => cases ht : (s.port p).state <;> simp_all

/-- What putting the unit `q'` in the place of port `p` keeps of the laws that speak of one port. -/
structure Worked (s : State) (p : PortId) (q' : Port) : Prop where
  lines : LinesLaw s → q'.linesLaw
  probe : LinesLaw s → (s.port p).probeLaw → q'.probeLaw
  policy : (s.port p).policyLaw → q'.policyLaw
  seated : (s.port p).seated → q'.seated
  stays : s.host.inReset = true → (s.port p).state = .disabled → q'.state = .disabled

/-- A unit changed in no field that a law of one port reads, but for its session's own items. -/
structure Port.Quiet (q q' : Port) : Prop where
  state : q'.state = q.state
  fixed : q'.fixed = q.fixed
  switchOn : q'.switchOn = q.switchOn
  presented : q'.presented = q.presented
  rePresent : q'.rePresent = q.rePresent
  overcurrent : q'.overcurrent = q.overcurrent
  hen : q'.pins.hen = q.pins.hen
  detector : q'.detector = q.detector
  probe : q'.timers.probe = q.timers.probe
  policy : q'.policy = q.policy
  session : q'.session.isSome = q.session.isSome

theorem Worked.of_quiet {s : State} {p : PortId} {q' : Port} (h : (s.port p).Quiet q') : Worked s p q' where
  lines hl := Port.linesLaw_congr (hl.1 p) h.switchOn h.state h.presented h.rePresent h.overcurrent h.hen
  probe _ hp := Port.probeLaw_congr hp h.detector h.presented h.probe
  policy hp := by
    unfold Port.policyLaw
    rw [h.policy, h.state]
    exact hp
  seated hs := by
    unfold Port.seated
    rw [h.session, h.state, h.fixed]
    exact hs
  stays _ hd := h.state.trans hd

theorem Port.bound_map (q : Port) {f : Session → Session} (hf : ∀ x, (f x).boundSlot = x.boundSlot) :
    (q.session.map f).bind (·.boundSlot) = q.bound := by
  unfold Port.bound
  cases q.session <;> simp [hf]

/-! ### Counting the users -/

theorem State.boundCount_eq (s : State) (n : SlotId) :
    s.boundCount n = allPorts.countP fun p => decide ((s.port p).bound = some n) := by
  rw [State.boundCount, State.boundPorts, ← List.countP_eq_length_filter]
  refine List.countP_congr fun p _ => ?_
  cases h : (s.port p).session <;> simp [Port.bound, h]

/-- The users of a slot counted without one port. -/
theorem State.boundCount_split (s : State) (p : PortId) (n : SlotId) :
    s.boundCount n = ((allPorts.erase p).countP fun q => decide ((s.port q).bound = some n))
      + if (s.port p).bound = some n then 1 else 0 := by
  have hp : allPorts.Perm (p :: allPorts.erase p) := List.perm_cons_erase (List.mem_finRange p)
  rw [State.boundCount_eq, hp.countP_eq, List.countP_cons]
  simp

/-- A change of one port's binding moves the count of each slot by that port's part (R73). -/
theorem State.boundCount_change {s t : State} {p : PortId} (h : ∀ q, q ≠ p → (t.port q).bound = (s.port q).bound)
    (n : SlotId) :
    t.boundCount n + (if (s.port p).bound = some n then 1 else 0)
      = s.boundCount n + if (t.port p).bound = some n then 1 else 0 := by
  have he : ((allPorts.erase p).countP fun q => decide ((t.port q).bound = some n))
      = (allPorts.erase p).countP fun q => decide ((s.port q).bound = some n) := by
    refine List.countP_congr fun q hq => ?_
    have hne : q ≠ p := ((List.nodup_finRange 8).mem_erase_iff.mp hq).1
    rw [h q hne]
  rw [State.boundCount_split t p, State.boundCount_split s p, he]
  omega

/-- The users law, spoken in bindings. -/
theorem usersLaw_iff (s : State) :
    UsersLaw s ↔ (∀ n e, s.entry n = some e → e.users = s.boundCount n)
      ∧ ∀ p n, (s.port p).bound = some n → (s.entry n).isSome = true := by
  unfold UsersLaw Port.bound
  refine and_congr_right fun _ => ⟨fun h p n hb => ?_, fun h p x n hx hb => h p n (by simp [hx, hb])⟩
  obtain ⟨x, hx, hn⟩ := Option.bind_eq_some_iff.mp hb
  exact h p x n hx hn

/-- The users law reads the bindings of the ports and the users of the entries only. -/
theorem UsersLaw.congr {s t : State} (h : UsersLaw s) (hb : ∀ p, (t.port p).bound = (s.port p).bound)
    (he : ∀ n, (t.entry n).map (·.users) = (s.entry n).map (·.users)) : UsersLaw t := by
  rw [usersLaw_iff] at h ⊢
  obtain ⟨hu, hs⟩ := h
  have hc : ∀ n, t.boundCount n = s.boundCount n := fun n => by
    simp only [State.boundCount_eq, hb]
  refine ⟨fun n e hn => ?_, fun p n hp => ?_⟩
  · have := he n
    rw [hn] at this
    obtain ⟨e', he', hu'⟩ := Option.map_eq_some_iff.mp this.symm
    rw [hc, ← hu n e' he']
    exact hu'.symm
  · have := hs p n (hb p ▸ hp)
    rw [← Option.isSome_map (f := (·.users)), he n, Option.isSome_map]
    exact this

/-! ### Runs -/

/-- The state after one port unit and the Profile Memory were worked on together. -/
def State.workOn (t : State) (p : PortId) (m : ProfileMemory → ProfileMemory) (f : Port → Port) : State :=
  (t.modMemory m).modPort p f

/-- From `s` to `t` by the updates that a step is made of. -/
inductive Run (s : State) : State → Prop where
  | refl : Run s s
  /-- One port unit and the Profile Memory, in one update. -/
  | work {t : State} (p : PortId) (m : ProfileMemory → ProfileMemory) (f : Port → Port) : Run s t →
      Worked t p (f (t.port p)) → (t.memory.law → (m t.memory).law) → (m t.memory).threshold = t.memory.threshold →
      (Seated t → UsersLaw t → UsersLaw (t.workOn p m f)) → Run s (t.workOn p m f)
  | budget {t : State} (b : Budget) : Run s t → b.waitLimit = t.budget.waitLimit → Run s { t with budget := b }
  | notices {t : State} (n : Notices) : Run s t → (NoticeLaw t → NoticeLaw { t with notices := n }) →
      Run s { t with notices := n }
  | host {t : State} (h : HostPort) : Run s t → (h.inReset = true → t.host.inReset = true) → Run s { t with host := h }
  | choice {t : State} (n : Nat) : Run s t → Run s { t with freeCount := n }
  | queue {t : State} (l : List Instr) : Run s t → Run s { t with pending := l }
  | globals {t : State} (a b : Nat) : Run s t → 2 ≤ a ∧ a ≤ 7 → 1 ≤ b ∧ b ≤ 15 → Run s (t.writeGlobals a b)
  | reset {t : State} (m : ProfileMemory) (h : HostPort) : Run s t → (t.memory.law → m.law) → m.threshold = 3 →
      (∀ n e, m.entry n = some e → e.users = 0) → Run s { t.resetBlocks with memory := m, host := h }
  | tick {t : State} : Run s t → Run s t.tick

variable {s t : State} {p : PortId}

theorem State.port_workOn_same (t : State) (p : PortId) (m : ProfileMemory → ProfileMemory) (f : Port → Port) :
    (t.workOn p m f).port p = f (t.port p) := State.port_modPort_same _ _ _

theorem State.port_workOn_ne (t : State) (p : PortId) (m : ProfileMemory → ProfileMemory) (f : Port → Port) {r : PortId}
    (h : r ≠ p) : (t.workOn p m f).port r = t.port r := State.port_modPort_ne _ _ _ _ h

/-- A property of each port carried through an update of one. -/
theorem State.forall_workOn {P : Port → Prop} (m : ProfileMemory → ProfileMemory) (f : Port → Port)
    (h : ∀ r, P (t.port r)) (hf : P (f (t.port p))) (r : PortId) : P ((t.workOn p m f).port r) :=
  State.forall_modPort p f h hf r

@[simp] theorem State.port_resetBlocks (s : State) (p : PortId) : s.resetBlocks.port p = Port.reset (s.port p).pins := by
  simp [State.port, State.resetBlocks]

@[simp] theorem State.port_tick (s : State) (p : PortId) : s.tick.port p = (s.port p).tick := by
  simp [State.port, State.tick]

theorem Policy.reset_inRange : Policy.reset.inRange := by
  unfold Policy.inRange
  decide

theorem Port.linesLaw_reset (pins : Pins) : (Port.reset pins).linesLaw := by
  simp [Port.linesLaw, Port.reset, PortState.isOn]

theorem Port.probeLaw_reset (pins : Pins) : (Port.reset pins).probeLaw := by
  simp [Port.probeLaw, Port.reset, Timers.stopped]

theorem Port.policyLaw_reset (pins : Pins) : (Port.reset pins).policyLaw :=
  ⟨Policy.reset_inRange, by simp [Port.reset, Policy.reset]⟩

theorem Port.linesLaw_tick {q : Port} (h : q.linesLaw) : q.tick.linesLaw := by
  obtain ⟨hs, hoff, hhub, hn⟩ := h
  refine ⟨hs, fun e => ?_, fun hh => ⟨(hhub hh).1, fun r hr => ?_⟩, fun hr => hn ?_⟩
  · obtain ⟨hp, hr, ho⟩ := hoff e
    exact ⟨hp, by simp [Port.tick, hr], ho⟩
  · obtain ⟨r', hr', rfl⟩ := Option.map_eq_some_iff.mp (show q.rePresent.map _ = some r from hr)
    exact (hhub hh).2 r' hr'
  · simpa [Port.tick] using hr

theorem Port.probeLaw_tick {q : Port} (h : q.probeLaw) : q.tick.probeLaw := by
  simpa [Port.probeLaw, Port.tick, Timers.tick, runDown] using h

/-! ### The laws along a run -/

theorem Run.linesLaw (h : Run s t) (hl : LinesLaw s) (hp : ProbeLaw s) : LinesLaw t ∧ ProbeLaw t := by
  induction h with
  | refl => exact ⟨hl, hp⟩
  | @work u p m f _ hw _ _ _ ih =>
    obtain ⟨⟨il, ir⟩, ip⟩ := ih
    exact ⟨⟨State.forall_workOn m f il (hw.lines ⟨il, ir⟩),
      fun hr => State.forall_workOn (P := fun q => q.state = .disabled) m f (ir hr) (hw.stays hr (ir hr p))⟩,
      State.forall_workOn m f ip (hw.probe ⟨il, ir⟩ (ip p))⟩
  | budget b _ _ ih => exact ih
  | notices n _ _ ih => exact ih
  | host h _ hr ih => exact ⟨⟨ih.1.1, fun e => ih.1.2 (hr e)⟩, ih.2⟩
  | choice n _ ih => exact ih
  | queue l _ ih => exact ih
  | globals a b _ _ _ ih => exact ih
  | @reset u m h _ _ _ _ _ =>
    have e : ∀ p, ({ u.resetBlocks with memory := m, host := h } : State).port p = Port.reset (u.port p).pins :=
      u.port_resetBlocks
    refine ⟨⟨fun p => ?_, fun _ p => ?_⟩, fun p => ?_⟩
    · exact e p ▸ Port.linesLaw_reset _
    · exact (congrArg Port.state (e p)).trans rfl
    · exact e p ▸ Port.probeLaw_reset _
  | tick _ ih =>
    refine ⟨⟨fun p => ?_, fun hr p => ?_⟩, fun p => ?_⟩
    · exact State.port_tick _ p ▸ Port.linesLaw_tick (ih.1.1 p)
    · rw [State.port_tick]
      exact ih.1.2 hr p
    · exact State.port_tick _ p ▸ Port.probeLaw_tick (ih.2 p)

theorem noticeLaw_reset : Notices.reset.alertLow = Notices.reset.unmaskedPending
    ∧ (∀ g : GroupId, Notices.reset.groups[g.val].pending &&& ~~~groupKinds g = 0)
    ∧ Notices.reset.mask &&& ~~~allKinds = 0 := by
  refine ⟨?_, fun g => ?_, by decide⟩
  · simp [Notices.reset, Notices.unmaskedPending]
  · simp [Notices.reset]

theorem Run.noticeLaw (h : Run s t) (hn : NoticeLaw s) : NoticeLaw t := by
  induction h with
  | refl => exact hn
  | work p m f _ _ _ _ _ ih => exact ih
  | budget b _ _ ih => exact ih
  | notices n _ hk ih => exact hk ih
  | host h _ _ ih => exact ih
  | choice n _ ih => exact ih
  | queue l _ ih => exact ih
  | globals a b _ _ _ ih => exact ih
  | reset m h _ _ _ _ _ => exact noticeLaw_reset
  | tick _ ih => exact ih

theorem Run.memoryLaw (h : Run s t) (hm : MemoryLaw s) : MemoryLaw t := by
  induction h with
  | refl => exact hm
  | work p m f _ _ hk _ _ ih => exact hk ih
  | budget b _ _ ih => exact ih
  | notices n _ _ ih => exact ih
  | host h _ _ ih => exact ih
  | choice n _ ih => exact ih
  | queue l _ ih => exact ih
  | globals a b _ _ _ ih => exact ih
  | reset m h _ hk _ _ ih => exact hk ih
  | tick _ ih => exact ih

theorem Run.policyLaw (h : Run s t) (hp : PolicyLaw s) : PolicyLaw t := by
  induction h with
  | refl => exact hp
  | @work u p m f _ hw _ ht _ ih =>
    obtain ⟨ip, it, iw⟩ := ih
    refine ⟨State.forall_workOn m f ip (hw.policy (ip p)), ?_, iw⟩
    exact (show (u.workOn p m f).memory.threshold = u.memory.threshold from ht) ▸ it
  | budget b _ hb ih => exact ⟨ih.1, ih.2.1, hb ▸ ih.2.2⟩
  | notices n _ _ ih => exact ih
  | host h _ _ ih => exact ih
  | choice n _ ih => exact ih
  | queue l _ ih => exact ih
  | globals a b _ ha hb ih => exact ⟨ih.1, ha, hb⟩
  | @reset u m h _ _ ht _ _ =>
    refine ⟨fun p => ?_, ?_, show 1 ≤ 5 ∧ 5 ≤ 15 by decide⟩
    · exact u.port_resetBlocks p ▸ Port.policyLaw_reset (u.port p).pins
    · have e : m.threshold = 3 := ht
      exact e ▸ ⟨by decide, by decide⟩
  | tick _ ih => exact ⟨fun p => State.port_tick _ p ▸ ih.1 p, ih.2⟩

theorem Run.usersLaw (h : Run s t) (hs : Seated s) (hu : UsersLaw s) : Seated t ∧ UsersLaw t := by
  induction h with
  | refl => exact ⟨hs, hu⟩
  | @work u p m f _ hw _ _ hk ih => exact ⟨State.forall_workOn m f ih.1 (hw.seated (ih.1 p)), hk ih.1 ih.2⟩
  | budget b _ _ ih => exact ih
  | notices n _ _ ih => exact ih
  | host h _ _ ih => exact ih
  | choice n _ ih => exact ih
  | queue l _ ih => exact ih
  | globals a b _ _ _ ih => exact ⟨ih.1, ih.2.congr (fun _ => rfl) fun _ => rfl⟩
  | @reset u m h _ _ _ h0 _ =>
    have e : ∀ p, (({ u.resetBlocks with memory := m, host := h } : State).port p) = Port.reset (u.port p).pins :=
      u.port_resetBlocks
    have hb : ∀ p, (({ u.resetBlocks with memory := m, host := h } : State).port p).bound = none := fun p => by
      rw [e]
      rfl
    refine ⟨fun p hx => ?_, (usersLaw_iff _).mpr ⟨fun n en hn => ?_, fun p n hp => ?_⟩⟩
    · rw [e] at hx
      cases hx
    · rw [h0 n en hn, State.boundCount_eq]
      simp [hb]
    · rw [hb] at hp
      cases hp
  | @tick u _ ih =>
    refine ⟨fun p => ?_, ih.2.congr (fun p => ?_) fun _ => rfl⟩
    · exact State.port_tick u p ▸ ih.1 p
    · rw [State.port_tick]
      rfl

end Sys2Proof.Machine
end

section
/-! SUPPORT. Each shared operation of the machine as a run: what it is made of, down to the updates of `Run`. -/

namespace Sys2Proof.Machine

variable {s t : State} {p : PortId}

/-! ### The updates -/

theorem State.modPort_id (t : State) (p : PortId) : t.modPort p id = t := by
  simp [State.modPort, State.setPort, State.port]

theorem State.modPort_modPort (t : State) (p : PortId) (f g : Port → Port) :
    (t.modPort p f).modPort p g = t.modPort p fun q => g (f q) := by
  simp [State.modPort, State.setPort, State.port]

theorem Worked.then_quiet {q' r : Port} (h : Worked s p q') (hq : q'.Quiet r) : Worked s p r where
  lines hl := Port.linesLaw_congr (h.lines hl) hq.switchOn hq.state hq.presented hq.rePresent hq.overcurrent hq.hen
  probe hl hp := Port.probeLaw_congr (h.probe hl hp) hq.detector hq.presented hq.probe
  policy hp := by
    unfold Port.policyLaw
    rw [hq.policy, hq.state]
    exact h.policy hp
  seated hs := by
    unfold Port.seated
    rw [hq.session, hq.state, hq.fixed]
    exact h.seated hs
  stays hr hd := hq.state.trans (h.stays hr hd)

/-- A port unit worked on, its binding kept. -/
theorem Run.port (h : Run s t) (f : Port → Port) (hw : Worked t p (f (t.port p)))
    (hb : (t.port p).seated → (f (t.port p)).bound = (t.port p).bound) : Run s (t.modPort p f) := by
  refine h.work p id f hw id rfl fun hs hu => hu.congr (fun r => ?_) fun _ => rfl
  by_cases e : r = p
  · rw [e, State.port_workOn_same]
    exact hb (hs p)
  · rw [State.port_workOn_ne _ _ _ _ e]

/-- A port unit worked on in its session's own items, its timers and counts. -/
theorem Run.quiet (h : Run s t) (f : Port → Port) (hq : ∀ q : Port, q.Quiet (f q)) (hb : ∀ q, (f q).bound = q.bound) :
    Run s (t.modPort p f) :=
  h.port f (Worked.of_quiet (hq _)) fun _ => hb _

theorem Run.modSession (h : Run s t) (f : Session → Session) (hf : ∀ x, (f x).boundSlot = x.boundSlot) :
    Run s (t.modSession p f) :=
  h.quiet _ (fun _ => ⟨rfl, rfl, rfl, rfl, rfl, rfl, rfl, rfl, rfl, rfl, Option.isSome_map⟩) fun q => q.bound_map hf

theorem Run.modTimers (h : Run s t) (f : Timers → Timers) (hf : ∀ x, (f x).probe = x.probe) : Run s (t.modTimers p f) :=
  h.quiet _ (fun _ => ⟨rfl, rfl, rfl, rfl, rfl, rfl, rfl, rfl, hf _, rfl, rfl⟩) fun _ => rfl

/-- The Profile Memory worked on, the users of each entry kept. -/
theorem Run.modMemory (h : Run s t) (m : ProfileMemory → ProfileMemory) (hm : t.memory.law → (m t.memory).law)
    (ht : (m t.memory).threshold = t.memory.threshold) (hu : UsersLaw t → UsersLaw (t.modMemory m)) :
    Run s (t.modMemory m) := by
  have e : t.workOn 0 m id = t.modMemory m := State.modPort_id _ _
  have w : Worked t 0 (id (t.port 0)) :=
    Worked.of_quiet ⟨rfl, rfl, rfl, rfl, rfl, rfl, rfl, rfl, rfl, rfl, rfl⟩
  exact e ▸ h.work 0 m id w hm ht fun _ => by
    rw [e]
    exact hu

theorem Run.setGrant (h : Run s t) (mA : Nat) : Run s (t.setGrant p mA) := h.budget _ rfl
theorem Run.leaveVictims (h : Run s t) : Run s (t.leaveVictims p) := h.budget _ rfl
theorem Run.setQueue (h : Run s t) (l : List QueueEntry) : Run s (t.setQueue l) := h.budget _ rfl
theorem Run.withdraw (h : Run s t) : Run s (t.withdraw p) := h.budget _ rfl

theorem Run.raisePort (h : Run s t) (k : Kind) (hk : k.mask &&& ~~~portKinds = 0 := by decide) :
    Run s (t.raisePort p k) := h.notices _ fun hn => hn.raisePort p k hk

theorem Run.raiseDevice (h : Run s t) (k : Kind) (hk : k.mask &&& ~~~deviceKinds = 0 := by decide) :
    Run s (t.raiseDevice k) := h.notices _ fun hn => hn.raiseDevice k hk

theorem Run.respond (h : Run s t) (st : Status) (tag code : Byte) (data : List Byte) :
    Run s (t.respond st tag code data) := h.host _ id

theorem Run.spendChoice (h : Run s t) : Run s t.spendChoice := h.choice _

/-! ### The lines -/

theorem Session.boundSlot_follow (c : Option Sig) (x : Session) : (x.follow c).boundSlot = x.boundSlot := by
  unfold Session.follow
  split <;> rfl

theorem Port.bound_goNeutral (q : Port) : q.goNeutral.bound = q.bound := q.bound_map (Session.boundSlot_follow _)

theorem Port.bound_present (q : Port) (c : Sig) : (q.present c).bound = q.bound := q.bound_map (Session.boundSlot_follow _)

/-- What a request for a re-present leaves of a port unit. -/
theorem Port.requestRePresent_keeps (q : Port) (target : Sig) (who : Requester) :
    (q.requestRePresent target who).state = q.state ∧ (q.requestRePresent target who).fixed = q.fixed
      ∧ (q.requestRePresent target who).policy = q.policy ∧ (q.requestRePresent target who).bound = q.bound
      ∧ (q.requestRePresent target who).session.isSome = q.session.isSome := by
  unfold Port.requestRePresent
  split
  · split
    · exact ⟨rfl, rfl, rfl, rfl, rfl⟩
    · exact ⟨rfl, rfl, rfl, q.bound_goNeutral, Option.isSome_map⟩
  · exact ⟨rfl, rfl, rfl, rfl, rfl⟩

theorem Worked.requestRePresent (s : State) (p : PortId) (target : Sig) (who : Requester) :
    Worked s p ((s.port p).requestRePresent target who) := by
  obtain ⟨hs, hf, hp, -, hx⟩ := (s.port p).requestRePresent_keeps target who
  refine ⟨fun h => Port.linesLaw_requestRePresent (h.1 p) target who,
    fun _ h => Port.probeLaw_requestRePresent h target who, fun h => ?_, fun h => ?_, fun _ h => hs.trans h⟩
  · unfold Port.policyLaw
    rw [hp, hs]
    exact h
  · unfold Port.seated
    rw [hx, hs, hf]
    exact h

/-- A request for a re-present, with a change of the session's own items. -/
theorem Run.requestRePresent (h : Run s t) (target : Sig) (who : Requester) (f : Port → Session → Session)
    (hf : ∀ q x, (f q x).boundSlot = x.boundSlot) :
    Run s (t.modPort p fun q =>
      { q.requestRePresent target who with
        session := (q.requestRePresent target who).session.map (f (q.requestRePresent target who)) }) := by
  refine h.port _ ((Worked.requestRePresent t p target who).then_quiet
    ⟨rfl, rfl, rfl, rfl, rfl, rfl, rfl, rfl, rfl, rfl, Option.isSome_map⟩) fun _ => ?_
  exact (Port.bound_map _ (hf _)).trans ((t.port p).requestRePresent_keeps target who).2.2.2.1

theorem Run.representFor (h : Run s t) (target : Sig) (who : Requester) : Run s (t.representFor p target who) :=
  h.requestRePresent target who (fun q x => { x with phase := some .representing, target := q.rePresent.map (·.target) })
    fun _ _ => rfl

/-! ### The budget arbiter -/

theorem Run.fallGrant (h : Run s t) (mA : Nat) : Run s (t.fallGrant p mA) := by
  unfold State.fallGrant
  split
  · exact (h.setGrant mA).leaveVictims
  · exact h.setGrant mA

theorem Run.serve (h : Run s t) (n : Nat) : Run s (State.serve n t) :=
  State.serve_keeps (P := Run s) (fun _ e rest h _ _ => (((h.setQueue rest).setGrant e.sig.offered).raisePort .grant).representFor
    e.sig .sequencer) n t h

/-- Another total in effect, another pending total. -/
theorem Run.setTotals (h : Run s t) (total : Nat) (pendingTotal : Option Nat) :
    Run s { t with budget := { t.budget with total := total, pendingTotal := pendingTotal } } := h.budget _ rfl

theorem Run.completeChange (h : Run s t) (total : Nat) : Run s (t.completeChange total) :=
  ((h.setTotals total none).raiseDevice .budgetApplied).serve _

theorem Run.afterRelease (h : Run s t) : Run s t.afterRelease := by
  unfold State.afterRelease
  split
  · exact h.serve _
  · split
    · exact h.completeChange _
    · exact h

theorem Run.joinQueue (h : Run s t) (sig : Sig) : Run s (t.joinQueue p sig) := (h.setQueue _).raisePort .wait

theorem Run.reportPresented (h : Run s t) (sig : Sig) : Run s (t.reportPresented p sig) := by
  unfold State.reportPresented
  split
  · exact (h.fallGrant _).afterRelease
  · exact h

/-! ### The Profile Memory -/

/-- A change of one entry that keeps its users keeps the users law. -/
theorem UsersLaw.modEntry (h : UsersLaw t) (n : SlotId) (f : Entry → Entry) (g : ProfileMemory → ProfileMemory)
    (hf : ∀ e, (f e).users = e.users) (hg : ∀ k, (g (t.memory.modEntry n f)).entry k = (t.memory.modEntry n f).entry k) :
    UsersLaw (t.modMemory fun m => g (m.modEntry n f)) := by
  refine h.congr (fun _ => rfl) fun k => ?_
  change ((g (t.memory.modEntry n f)).entry k).map (·.users) = (t.memory.entry k).map (·.users)
  rw [hg]
  by_cases e : k = n
  · subst e
    rw [ProfileMemory.entry_modEntry_same]
    cases t.memory.entry k <;> simp [hf]
  · rw [ProfileMemory.entry_modEntry_ne _ _ _ _ e]

theorem Run.foldRequest (h : Run s t) (n : SlotId) (sig : Sig) (b : Bool) : Run s (t.foldRequest n sig b) := by
  refine h.modMemory _ (fun hm => ProfileMemory.law_fold hm n sig b) (ProfileMemory.threshold_fold _ _ _ _) fun hu => ?_
  by_cases hn : (t.memory.entry n).isSome = true
  · have e : (t.modMemory (·.fold n sig b)) = t.modMemory fun m =>
        (m.modEntry n fun e => { e with tallies := e.tallies.modify (Tally.fold b) sig }).toFront n := by
      simp [State.modMemory, ProfileMemory.fold, hn]
    rw [e]
    exact hu.modEntry n _ (·.toFront n) (fun _ => rfl) fun k => ProfileMemory.entry_toFront _ _ _
  · have e : (t.modMemory (·.fold n sig b)) = t := by
      simp [State.modMemory, ProfileMemory.fold, hn]
    rw [e]
    exact hu

theorem Entry.users_releaseChange (r : Half) (e : Entry) : (e.releaseChange r).users = e.users := by
  unfold Entry.releaseChange
  split <;> rfl

/-- A change of an entry's data moved to the front keeps the law of the memory. -/
theorem ProfileMemory.law_modEntry_toFront {m : ProfileMemory} (h : m.law) (n : SlotId) (f : Entry → Entry)
    (hn : (m.entry n).isSome = true) (hk : ∀ e, (f e).vendor = e.vendor ∧ (f e).product = e.product)
    (hv : ∀ e, e.tallies.valid = true → (f e).tallies.valid = true) : ((m.modEntry n f).toFront n).law :=
  ProfileMemory.law_toFront (ProfileMemory.law_modEntry h n f hk hv) n (by simpa using hn)

theorem Run.confirmRequest (h : Run s t) (n : SlotId) (r : Half) : Run s (t.confirmRequest n r) := by
  unfold State.confirmRequest
  split
  · rename_i hn
    refine h.modMemory _ (fun hm => ?_) (ProfileMemory.threshold_toFront _ _) fun hu => ?_
    · exact ProfileMemory.law_modEntry_toFront hm n _ hn (fun e => (Entry.releaseChange_keeps r e).1)
        fun e => (Entry.releaseChange_keeps r e).2
    · exact hu.modEntry n _ (·.toFront n) (Entry.users_releaseChange r) fun k => ProfileMemory.entry_toFront _ _ _
  · exact h

/-! ### The trial sequencer -/

theorem Run.compute (h : Run s t) (retry : Bool) : Run s (t.compute p retry) :=
  h.quiet _ (fun _ => ⟨rfl, rfl, rfl, rfl, rfl, rfl, rfl, rfl, rfl, rfl, Option.isSome_map⟩)
    fun q => q.bound_map fun _ => rfl

theorem Run.startWindow (h : Run s t) : Run s (t.startWindow p) :=
  h.quiet _ (fun _ => ⟨rfl, rfl, rfl, rfl, rfl, rfl, rfl, rfl, rfl, rfl, Option.isSome_map⟩)
    fun q => q.bound_map fun _ => rfl

theorem Run.enterSteady (h : Run s t) : Run s (t.enterSteady p) :=
  Run.raisePort (h.quiet _ (fun _ => by exact ⟨rfl, rfl, rfl, rfl, rfl, rfl, rfl, rfl, rfl, rfl, Option.isSome_map⟩)
    fun q => by exact q.bound_map fun _ => rfl) .steady

theorem Run.enterSteadyHeld (h : Run s t) : Run s (t.enterSteadyHeld p) :=
  Run.raisePort (h.quiet _ (fun _ => by exact ⟨rfl, rfl, rfl, rfl, rfl, rfl, rfl, rfl, rfl, rfl, Option.isSome_map⟩)
    fun q => by exact q.bound_map fun _ => rfl) .steady

theorem Run.stepReached (h : Run s t) (k : StepKind) : Run s (t.stepReached p k) := by
  cases k
  · exact h.startWindow
  · exact h.enterSteady

theorem Run.towardStep (h : Run s t) (st : TrialStep) : Run s (t.towardStep p st) := by
  unfold State.towardStep
  split
  · exact (h.reportPresented _).stepReached _
  · exact h.representFor _ _

theorem Run.setCurrent (h : Run s t) (st : TrialStep) (rest : List TrialStep) : Run s (t.setCurrent p st rest) :=
  h.modSession _ fun _ => rfl

theorem Run.takeHead (h : Run s t) (st : TrialStep) (rest : List TrialStep) : Run s (t.takeHead p st rest) := by
  unfold State.takeHead
  dsimp only
  split
  · exact (h.setCurrent st rest).towardStep st
  · split
    · exact ((h.setCurrent st rest).setGrant _).towardStep st
    · exact ((h.setCurrent st rest).joinQueue _).modSession _ fun _ => rfl

theorem Run.exhaust (h : Run s t) : Run s (t.exhaust p) := by
  have a : Run s (t.modSession p fun x => { x with remaining := [], current := none }) := h.modSession _ fun _ => rfl
  unfold State.exhaust
  dsimp only
  split
  · exact (a.reportPresented _).enterSteady
  · exact a.representFor _ _

theorem Run.walk (h : Run s t) : Run s (t.walk p) := by
  unfold State.walk
  split
  · exact h
  · split
    · exact h.exhaust
    · exact h.takeHead _ _

theorem Run.takeStep (h : Run s t) : Run s (t.takeStep p) := by
  unfold State.takeStep
  split
  · exact (h.compute _).walk
  · exact h.walk

theorem Run.recompute (h : Run s t) : Run s (t.recompute p) := (h.compute _).takeStep

theorem Run.nextStep (h : Run s t) : Run s (t.nextStep p) := by
  unfold State.nextStep
  split
  · exact h.recompute
  · exact h.takeStep

theorem Run.reAim (h : Run s t) : Run s (t.reAim p) := by
  unfold State.reAim
  dsimp only
  split
  · exact h
  · split
    · exact (h.compute _).takeStep
    · exact (h.compute _).modSession _ fun _ => rfl

theorem Run.steadyOutcome (h : Run s t) : Run s (t.steadyOutcome p) := by
  unfold State.steadyOutcome
  dsimp only
  split
  · exact h.enterSteady.reAim
  · exact h.enterSteady

theorem Run.recordVerdict (h : Run s t) (sig : Sig) (v : Verdict) : Run s (t.recordVerdict p sig v) := by
  unfold State.recordVerdict
  split
  · exact h
  · rename_i x _
    have a : Run s (t.modSession p fun y =>
        { y with verdicts := recordIn y.verdicts ⟨sig, v, v.counts && x.boundSlot.isSome⟩ }) :=
      h.modSession _ fun _ => rfl
    dsimp only
    split
    · exact a
    · split
      · exact a.foldRequest _ _ _
      · exact a

theorem Run.followVerdict (h : Run s t) (v : Verdict) : Run s (t.followVerdict p v) := by
  cases v
  · exact h.steadyOutcome
  · exact h.nextStep
  · exact h.steadyOutcome

theorem Run.judge (h : Run s t) (x : Session) (sig : Sig) : Run s (t.judge p x sig) :=
  (((h.modSession _ fun _ => by exact rfl).recordVerdict _ _).raisePort .verdict).followVerdict _

theorem Run.computationCall (h : Run s t) : Run s (t.computationCall p) := by
  unfold State.computationCall
  split
  · exact h
  · exact h.modSession _ fun _ => rfl
  · exact h.reAim

/-! ### Sheds -/

theorem Session.boundSlot_abandon (x : Session) : x.abandon.boundSlot = x.boundSlot := by
  unfold Session.abandon
  split <;> rfl

theorem Session.boundSlot_shedNow (x : Session) : x.shedNow.boundSlot = x.boundSlot := x.boundSlot_abandon

theorem Run.shedOccupied (h : Run s t) : Run s (t.shedOccupied p) := by
  have a : Run s ((t.withdraw p).modPort p fun q =>
      { q with
        timers := { q.timers with settle := none, identityWait := none, evaluation := none }
        session := q.session.map (·.shedNow) }) :=
    h.withdraw.quiet _ (fun _ => ⟨rfl, rfl, rfl, rfl, rfl, rfl, rfl, rfl, rfl, rfl, Option.isSome_map⟩)
      fun q => q.bound_map Session.boundSlot_shedNow
  unfold State.shedOccupied
  dsimp only
  split
  · exact (a.fallGrant _).enterSteady
  · exact a.representFor _ _

theorem Run.shedHeld (h : Run s t) : Run s (t.shedHeld p) := by
  have a : Run s (t.modSession p (·.shedNow)) := h.modSession _ Session.boundSlot_shedNow
  unfold State.shedHeld
  dsimp only
  split
  · exact (a.fallGrant _).enterSteadyHeld
  · exact a.requestRePresent .P .shed
      (fun q x => { x with held := some .representing, target := q.rePresent.map (·.target) }) fun _ _ => rfl

theorem Run.shedSuspended (h : Run s t) : Run s (t.shedSuspended p) := by
  unfold State.shedSuspended
  split
  · exact Run.fallGrant (h.modSession _ fun _ => by exact rfl) _
  · exact h

theorem Run.shedPort (h : Run s t) : Run s (t.shedPort p) := by
  unfold State.shedPort
  split
  · exact h.shedOccupied
  · exact h.shedHeld
  · exact h.shedSuspended
  · exact h.shedSuspended
  · exact h
  · exact h
  · exact h
  · exact h

theorem Run.shedVictims (h : Run s t) (l : List PortId) : Run s (l.foldl State.shedVictim t) := by
  induction l generalizing t with
  | nil => exact h
  | cons p l ih => exact ih (h.raisePort .shed).shedPort

theorem Run.startShed (h : Run s t) (total : Nat) : Run s (t.startShed total) :=
  Run.afterRelease (Run.shedVictims (h.budget
    { t.budget with pendingTotal := some total, victims := victimMarks (t.victimsFor total) } rfl) _)

theorem Run.applyTotal (h : Run s t) (total : Nat) : Run s (t.applyTotal total) :=
  ((h.setTotals total t.budget.pendingTotal).raiseDevice .budgetApplied).serve _

end Sys2Proof.Machine
end

section
/-! SUPPORT. The life of a session and of a port as runs: opening, ending, POWERING, trips, recovery, binding. -/

namespace Sys2Proof.Machine

variable {s t : State} {p : PortId}

/-! ### A session ends -/

/-- A port's binding and the Profile Memory changed together keep the users law when each entry's users move by the port's
part (R73). -/
theorem UsersLaw.workOn (h : UsersLaw t) {m : ProfileMemory → ProfileMemory} {f : Port → Port}
    (hc : ∀ n e, (m t.memory).entry n = some e → e.users + (if (t.port p).bound = some n then 1 else 0)
      = t.boundCount n + if (f (t.port p)).bound = some n then 1 else 0)
    (hk : ∀ n, (t.memory.entry n).isSome = true → ((m t.memory).entry n).isSome = true)
    (hn : ∀ n, (f (t.port p)).bound = some n → ((m t.memory).entry n).isSome = true) : UsersLaw (t.workOn p m f) := by
  rw [usersLaw_iff] at h ⊢
  refine ⟨fun n e he => ?_, fun q n hq => ?_⟩
  · have hb := State.boundCount_change (s := t) (t := t.workOn p m f) (p := p)
      (fun q hq => by rw [State.port_workOn_ne _ _ _ _ hq]) n
    rw [State.port_workOn_same] at hb
    have := hc n e he
    omega
  · by_cases e : q = p
    · subst e
      rw [State.port_workOn_same] at hq
      exact hn n hq
    · rw [State.port_workOn_ne _ _ _ _ e] at hq
      exact hk n (h.2 q n hq)

theorem UsersLaw.one_le (h : UsersLaw t) {n : SlotId} {e : Entry} (hb : (t.port p).bound = some n)
    (he : t.memory.entry n = some e) : 1 ≤ e.users := by
  rw [((usersLaw_iff t).mp h).1 n e he, State.boundCount_split t p n, if_pos hb]
  omega

/-- A slot without an entry has no users. -/
theorem UsersLaw.boundCount_vacant (h : UsersLaw t) {n : SlotId} (he : t.memory.entry n = none) : t.boundCount n = 0 := by
  rw [State.boundCount_eq, List.countP_eq_zero]
  intro p _ hp
  have := ((usersLaw_iff t).mp h).2 p n (by simpa using hp)
  rw [State.entry, he] at this
  cases this

/-- What a session's end or a rebind does to the entry its session was bound to (R88). -/
def ProfileMemory.unbind (o : Option SlotId) (m : ProfileMemory) : ProfileMemory :=
  match o with
  | none => m
  | some n => m.modEntry n fun e => { e with users := e.users - 1 }

theorem State.unbindSession_eq (t : State) (p : PortId) :
    t.unbindSession p = t.modMemory (ProfileMemory.unbind (t.port p).bound) := by
  unfold State.unbindSession
  split
  · rename_i h
    rw [Port.bound, h]
    rfl
  · rename_i h
    rw [Port.bound, h]
    rfl

theorem ProfileMemory.law_unbind {m : ProfileMemory} (h : m.law) (o : Option SlotId) : (m.unbind o).law := by
  cases o
  · exact h
  · exact ProfileMemory.law_modEntry h _ _ (fun _ => ⟨rfl, rfl⟩) fun _ => id

/-- A port whose binding is given up, its entry's users one less, keeps the users law. -/
theorem UsersLaw.unbind (h : UsersLaw t) {f : Port → Port} (hf : (f (t.port p)).bound = none) :
    UsersLaw (t.workOn p (ProfileMemory.unbind (t.port p).bound) f) := by
  have key : ∀ n, ((t.memory.unbind (t.port p).bound).entry n).map (·.users)
      = (t.memory.entry n).map fun e => if (t.port p).bound = some n then e.users - 1 else e.users := fun n => by
    cases ho : (t.port p).bound with
    | none => rfl
    | some k =>
      unfold ProfileMemory.unbind
      by_cases e : n = k
      · subst e
        rw [ProfileMemory.entry_modEntry_same]
        cases t.memory.entry n <;> simp
      · rw [ProfileMemory.entry_modEntry_ne _ _ _ _ e]
        simp [Ne.symm e]
  refine h.workOn (fun n e he => ?_) (fun n hn => ?_) fun n hn => ?_
  · have hk := key n
    rw [he] at hk
    obtain ⟨o, ho, hu⟩ := Option.map_eq_some_iff.mp hk.symm
    rw [hf, ← ((usersLaw_iff t).mp h).1 n o ho]
    dsimp only at hu
    by_cases hb : (t.port p).bound = some n
    · have := h.one_le hb ho
      simp only [hb, if_true] at hu
      simp [hb]
      omega
    · simp only [hb, if_false] at hu
      simp [hb, hu]
  · have := congrArg Option.isSome (key n)
    simpa [hn] using this
  · rw [hf] at hn
    cases hn

/-- A session ends with what else its event does to the port unit. -/
theorem Run.ended (h : Run s t) (f : Port → Port) (hw : Worked t p (f (t.port p))) (hn : (f (t.port p)).session = none) :
    Run s ((t.unbindSession p).modPort p f) := by
  rw [State.unbindSession_eq]
  refine h.work p _ f hw (fun hm => ProfileMemory.law_unbind hm _) ?_ fun _ hu => hu.unbind ?_
  · cases (t.port p).bound <;> rfl
  · rw [Port.bound, hn]
    rfl

/-- The port unit of a session that ends (R39). -/
def Port.endSession (q : Port) : Port :=
  { q with timers := { q.timers with settle := none, identityWait := none, hold := none, evaluation := none }, session := none }

theorem State.endSession_eq (t : State) (p : PortId) :
    t.endSession p = ((t.unbindSession p).modPort p Port.endSession).withdraw p := rfl

theorem Run.endSession (h : Run s t) : Run s (t.endSession p) := by
  rw [State.endSession_eq]
  refine (h.ended Port.endSession ⟨fun hl => ?_, fun _ hp => ?_, id, fun _ hx => (by cases hx), fun _ => id⟩ rfl).withdraw
  · exact Port.linesLaw_congr (hl.1 p) rfl rfl rfl rfl rfl rfl
  · exact Port.probeLaw_congr hp rfl rfl rfl

/-- The port unit of a shut-down: off, without a session, every timer stopped. -/
def Port.shut (q : Port) : Port := { q.switchOff with session := none, timers := Timers.stopped }

theorem State.modPort_fallGrant (t : State) (p r : PortId) (mA : Nat) (f : Port → Port) :
    (t.fallGrant r mA).modPort p f = (t.modPort p f).fallGrant r mA := by
  unfold State.fallGrant
  split <;> rfl

/-- A shut-down and what its event does to the port unit, as one change of the unit. -/
theorem State.modPort_shutDown (t : State) (p : PortId) (mA : Nat) (f : Port → Port) :
    (t.shutDown p mA).modPort p f
      = (((t.unbindSession p).modPort p fun q => f q.shut).withdraw p).fallGrant p mA := by
  have hu : (t.modPort p Port.switchOff).unbindSession p = (t.unbindSession p).modPort p Port.switchOff := by
    rw [State.unbindSession_eq, State.unbindSession_eq, State.port_modPort_same]
    rfl
  have hw : ∀ (u : State) g, (u.withdraw p).modPort p g = (u.modPort p g).withdraw p := fun _ _ => rfl
  have e : t.shutDown p mA = (((t.unbindSession p).modPort p Port.shut).withdraw p).fallGrant p mA := by
    rw [State.shutDown, State.endSession_eq, hu, State.modPort_modPort, State.modTimers, hw, State.modPort_modPort]
    rfl
  rw [e, State.modPort_fallGrant, hw, State.modPort_modPort]

theorem Run.shutDown (h : Run s t) (mA : Nat) (f : Port → Port) (hw : Worked t p (f (t.port p).shut))
    (hf : (f (t.port p).shut).session = none) : Run s ((t.shutDown p mA).modPort p f) := by
  rw [State.modPort_shutDown]
  exact ((h.ended (fun q => f q.shut) hw hf).withdraw).fallGrant mA

/-- A port unit shut down into a state that is off. -/
theorem Worked.shut {q' : Port} (hsw : q'.switchOn = false) (hpr : q'.presented = none) (hre : q'.rePresent = none)
    (hdet : q'.detector = .off) (hov : q'.overcurrent = false) (hti : q'.timers.probe = none) (hse : q'.session = none)
    (hst : q'.state.isOn = false) (hpol : (s.port p).policyLaw → q'.policyLaw)
    (hkeep : (s.port p).state = .disabled → q'.state = .disabled) : Worked s p q' where
  lines _ := by simp [Port.linesLaw, hsw, hst, hpr, hre, hov]
  probe _ _ := by simp [Port.probeLaw, hdet, hpr, hti]
  policy := hpol
  seated _ hx := by
    rw [hse] at hx
    cases hx
  stays _ := hkeep

/-! ### Changes of the port state -/

theorem PortState.not_disabled {st : PortState} (h : st.isOn = true) : st ≠ .disabled := by
  rintro rfl
  cases h

/-- From one state with the switch on to another. -/
theorem Worked.setState {q' : Port} (h : Worked s p q') (st : PortState) (hold : (s.port p).state.isOn = true)
    (hq : q'.state = (s.port p).state) (hst : st.isOn = true)
    (hs : (s.port p).seated → ({ q' with state := st } : Port).seated) : Worked s p { q' with state := st } where
  lines hl := by
    obtain ⟨h1, h2⟩ := h.lines hl
    exact ⟨by rw [show ({ q' with state := st } : Port).switchOn = q'.switchOn from rfl, h1, hq, hold, hst], h2⟩
  probe hl hp := Port.probeLaw_congr (h.probe hl hp) rfl rfl rfl
  policy hp := by
    obtain ⟨hr, he⟩ := h.policy hp
    refine ⟨hr, he.trans (iff_of_true ?_ (PortState.not_disabled hst))⟩
    rw [hq]
    exact PortState.not_disabled hold
  seated := hs
  stays _ hd := absurd hd (PortState.not_disabled hold)

theorem Worked.refl (s : State) (p : PortId) : Worked s p (s.port p) :=
  Worked.of_quiet ⟨rfl, rfl, rfl, rfl, rfl, rfl, rfl, rfl, rfl, rfl, rfl⟩

/-! ### Opening -/

/-- The port unit of a session that opens (R28, R37). -/
def Port.open (q : Port) : Port :=
  { q with
    counter := q.counter + 1
    state := .occupied
    timers := { q.timers with settle := some settleTime }
    session := some q.newSession }

theorem State.openSession_eq (t : State) (p : PortId) : t.openSession p = (t.modPort p Port.open).raisePort p .attach := rfl

theorem Run.openSession (h : Run s t) (hs : (t.port p).state.isOn = true)
    (hx : (t.port p).seated → (t.port p).session = none) : Run s (t.openSession p) := by
  have w := (Worked.refl t p).setState .occupied hs rfl rfl fun _ _ => Or.inl rfl
  rw [State.openSession_eq]
  refine Run.raisePort (h.port Port.open ⟨fun hl => ?_, fun _ hp => ?_, fun hp => w.policy hp, fun _ _ => Or.inl rfl,
    fun hr hd => w.stays hr hd⟩ fun hq => ?_) .attach
  · exact Port.linesLaw_congr (w.lines hl) rfl rfl rfl rfl rfl rfl
  · exact Port.probeLaw_congr hp rfl rfl rfl
  · rw [Port.bound, Port.bound, hx hq]
    rfl

theorem Run.victimRest (h : Run s t) : Run s (t.victimRest p) := by
  unfold State.victimRest
  split
  · exact h.shedOccupied
  · exact h

theorem Run.openRemovable (h : Run s t) (hs : (t.port p).state.isOn = true)
    (hx : (t.port p).seated → (t.port p).session = none) : Run s (t.openRemovable p) := (h.openSession hs hx).victimRest

theorem Port.quiet_startLink (q : Port) : q.Quiet (if q.pins.lok then q else q.startLink) := by
  split <;> exact ⟨rfl, rfl, rfl, rfl, rfl, rfl, rfl, rfl, rfl, rfl, rfl⟩

theorem Run.openFixed (h : Run s t) (hs : (t.port p).state.isOn = true)
    (hx : (t.port p).seated → (t.port p).session = none) : Run s (t.openFixed p) :=
  (h.openSession hs hx).quiet _ Port.quiet_startLink fun q => by
    split <;> rfl

/-! ### The trials, holds and returns -/

theorem Run.beginTrials (h : Run s t) : Run s (t.beginTrials p) := (h.modSession _ fun _ => by exact rfl).recompute

theorem Run.settleEnd (h : Run s t) : Run s (t.settleEnd p) := by
  unfold State.settleEnd
  split
  · exact h
  · split
    · exact h.recompute
    · split
      · exact h.quiet _ (fun _ => ⟨rfl, rfl, rfl, rfl, rfl, rfl, rfl, rfl, rfl, rfl, Option.isSome_map⟩)
          fun q => q.bound_map fun _ => rfl
      · exact h.beginTrials

theorem Run.resettle (h : Run s t) : Run s (t.resettle p) :=
  h.quiet _ (fun _ => ⟨rfl, rfl, rfl, rfl, rfl, rfl, rfl, rfl, rfl, rfl, Option.isSome_map⟩)
    fun q => q.bound_map fun _ => rfl

theorem Run.detach (h : Run s t) (hs : (t.port p).state = .occupied) : Run s (t.detach p) := by
  have hon : (t.port p).state.isOn = true := by rw [hs]; rfl
  have w := ((Worked.refl t p).setState .hold hon rfl rfl fun _ _ => Or.inr (Or.inl rfl)).then_quiet
    (r := (t.port p).detach) ⟨rfl, rfl, rfl, rfl, rfl, rfl, rfl, rfl, rfl, rfl, Option.isSome_map⟩
  have a : Run s (t.modPort p Port.detach) := h.port _ w fun _ => Port.bound_map _ fun _ => rfl
  unfold State.detach
  dsimp only
  split
  · exact a.withdraw.afterRelease
  · exact a

theorem Run.unhold (h : Run s t) (hs : (t.port p).state = .hold) : Run s (t.unhold p) := by
  have hon : (t.port p).state.isOn = true := by rw [hs]; rfl
  have w := (Worked.refl t p).setState .occupied hon rfl rfl fun _ _ => Or.inl rfl
  exact h.port _ (w.then_quiet ⟨rfl, rfl, rfl, rfl, rfl, rfl, rfl, rfl, rfl, rfl, Option.isSome_map⟩)
    fun _ => Port.bound_map _ fun _ => rfl

@[simp] theorem State.port_foldRequest (t : State) (n : SlotId) (sig : Sig) (b : Bool) (r : PortId) :
    (t.foldRequest n sig b).port r = t.port r := rfl

/-- A verdict recorded changes the session's verdict list and nothing else of its port (R59, R60). -/
theorem State.port_recordVerdict (t : State) (p : PortId) (sig : Sig) (v : Verdict) :
    (t.recordVerdict p sig v).port p = { t.port p with session := (t.port p).session.map fun y =>
      { y with verdicts := recordIn y.verdicts ⟨sig, v, v.counts && y.boundSlot.isSome⟩ } } := by
  unfold State.recordVerdict
  cases hx : (t.port p).session with
  | none =>
    simp only [Option.map_none]
    rw [← hx]
  | some x =>
    dsimp only
    (repeat' split) <;> simp [hx]

theorem Run.bounce (h : Run s t) (sig : Sig) (hs : (t.port p).state = .hold) : Run s (t.bounce p sig) :=
  (Run.resettle (Run.modSession (((h.recordVerdict sig .rejected).raisePort .verdict).unhold (by
    rw [State.port_raisePort, State.port_recordVerdict]
    exact hs)) Session.clearAccumulators fun _ => rfl)).raisePort .attach

theorem Run.reAttach (h : Run s t) (hs : (t.port p).state = .hold) : Run s (t.reAttach p) := by
  have a := (h.unhold hs).raisePort (p := p) .attach
  unfold State.reAttach
  dsimp only
  split
  · exact (a.modSession _ fun _ => by exact rfl).shedOccupied
  · split
    · exact a.modSession _ fun _ => by exact rfl
    · exact a.resettle

theorem Run.returnInHold (h : Run s t) (hs : (t.port p).state = .hold) : Run s (t.returnInHold p) := by
  unfold State.returnInHold
  split
  · exact h
  · split
    · exact h.bounce _ hs
    · exact h.reAttach hs

theorem Run.backToP (h : Run s t) : Run s (t.backToP p) := by
  unfold State.backToP
  split
  · split
    · exact (h.fallGrant _).afterRelease
    · exact h
  · exact h.port _ (Worked.requestRePresent t p .P .holdExpiry)
      fun _ => ((t.port p).requestRePresent_keeps .P .holdExpiry).2.2.2.1

theorem State.port_unbindSession (t : State) (p r : PortId) : (t.unbindSession p).port r = t.port r := by
  rw [State.unbindSession_eq, State.port_modMemory]

@[simp] theorem State.port_endSession_same (t : State) (p : PortId) : (t.endSession p).port p = (t.port p).endSession := by
  rw [State.endSession_eq, State.port_withdraw, State.port_modPort_same, State.port_unbindSession]

theorem Run.holdEnd (h : Run s t) (hs : (t.port p).state = .hold) : Run s (t.holdEnd p) := by
  have hq : (t.endSession p).port p = (t.port p).endSession := State.port_endSession_same t p
  have hon : ((t.endSession p).port p).state.isOn = true := by
    rw [hq, show (t.port p).endSession.state = (t.port p).state from rfl, hs]
    rfl
  have w := (Worked.refl (t.endSession p) p).setState .idle hon rfl rfl fun _ hx => by
    rw [hq] at hx
    cases hx
  exact Run.backToP (Run.raisePort (h.endSession.port _ w fun _ => rfl) .detach)

/-! ### POWERING -/

theorem Run.resume (h : Run s t) (x : Session) (hs : (t.port p).state = .powering) : Run s (t.resume p x) := by
  have hon : (t.port p).state.isOn = true := by rw [hs]; rfl
  have hk := (t.port p).requestRePresent_keeps (x.presented.getD .P) .resumption
  have w := (Worked.requestRePresent t p (x.presented.getD .P) .resumption).setState .occupied hon hk.1 rfl
    fun _ _ => Or.inl rfl
  exact h.port _ (w.then_quiet ⟨rfl, rfl, rfl, rfl, rfl, rfl, rfl, rfl, rfl, rfl, Option.isSome_map⟩)
    fun _ => by exact (Port.bound_map _ fun _ => by exact rfl).trans hk.2.2.2.1

theorem Worked.present (c : Sig) (hon : LinesLaw s → (s.port p).switchOn = true)
    (hc : LinesLaw s → (s.port p).pins.hen = true → c.chargeOnly = false) : Worked s p ((s.port p).present c) where
  lines hl := Port.linesLaw_present (hl.1 p) c (hon hl) (hc hl)
  probe _ _ := Port.probeLaw_present _ c
  policy := id
  seated h hx := h (by simpa [Port.present] using hx)
  stays _ := id

theorem Run.presentP (h : Run s t) (hs : (t.port p).state = .powering) : Run s (t.presentP p) :=
  h.port _ (Worked.present .P (fun hl => by rw [(hl.1 p).1, hs]; rfl) fun _ _ => rfl) fun _ => Port.bound_present _ _

theorem Port.seated_none {q : Port} (h : q.seated) (hs : q.state = .idle ∨ (q.state = .powering ∧ q.fixed = false)) :
    q.session = none := by
  have hx := mt h
  rcases hs with e | ⟨e, hf⟩
  · simpa [e] using hx
  · simpa [e, hf] using hx

theorem Run.toIdle (h : Run s t) (hs : (t.port p).state = .powering) (hf : (t.port p).fixed = false) :
    Run s (t.setPortState p .idle) := by
  have hon : (t.port p).state.isOn = true := by rw [hs]; rfl
  refine h.port _ ((Worked.refl t p).setState .idle hon rfl rfl fun hq hx => ?_) fun _ => rfl
  have hn := Port.seated_none hq (Or.inr ⟨hs, hf⟩)
  exact absurd (hx : (t.port p).session.isSome = true) (by simp [hn])

@[simp] theorem State.port_presentP (t : State) (p : PortId) : (t.presentP p).port p = (t.port p).present .P :=
  State.port_modPort_same _ _ _

@[simp] theorem Port.state_present (q : Port) (c : Sig) : (q.present c).state = q.state := rfl
@[simp] theorem Port.fixed_present (q : Port) (c : Sig) : (q.present c).fixed = q.fixed := rfl

theorem Run.powerGoodEnd (h : Run s t) (hs : (t.port p).state = .powering) : Run s (t.powerGoodEnd p) := by
  have a : Run s (t.modTimers p fun x => { x with powerGood := none }) := h.modTimers _ fun _ => rfl
  have ha : ((t.modTimers p fun x => { x with powerGood := none }).port p).state = .powering := by
    rw [State.port_modTimers_same]
    exact hs
  have b := a.presentP ha
  unfold State.powerGoodEnd
  dsimp only
  split
  · split
    · rename_i hx
      refine b.openFixed (by simp [hs, PortState.isOn]) fun _ => ?_
      simp [Port.present, hx]
    · exact a.resume _ ha
  · rename_i hf
    have c := b.toIdle (p := p) (by simp [hs]) (by simpa using hf)
    split
    · refine c.openRemovable (by simp [PortState.isOn]) fun hq => Port.seated_none hq (Or.inl (by simp))
    · exact c

/-- The port unit as POWERING begins (R16, R20). -/
def Port.powered (q : Port) : Port :=
  { q with switchOn := true, state := .powering, timers := { q.timers with powerGood := some q.policy.powerGood } }

theorem State.enterPowering_eq (t : State) (p : PortId) :
    t.enterPowering p
      = if (t.port p).policy.powerGood = 0 then (t.modPort p Port.powered).powerGoodEnd p else t.modPort p Port.powered := rfl

theorem Run.enterPowering_of (h : Run s (t.modPort p Port.powered)) : Run s (t.enterPowering p) := by
  rw [State.enterPowering_eq]
  split
  · exact h.powerGoodEnd (by rw [State.port_modPort_same]; rfl)
  · exact h

/-- A port that is off obeys the lines law with its switch on, its lines being neutral. -/
theorem Port.linesLaw_powered {q r : Port} (h : q.linesLaw) (hoff : q.state.isOn = false) (hs : r.switchOn = true)
    (ht : r.state = .powering) (hp : r.presented = q.presented) (hr : r.rePresent = q.rePresent) : r.linesLaw := by
  obtain ⟨h1, h2, -⟩ := h
  obtain ⟨hn, hre, -⟩ := h2 (h1.trans hoff)
  simp [Port.linesLaw, hs, ht, hp, hr, hn, hre, PortState.isOn]

theorem Run.enterPowering (h : Run s t) (hs : (t.port p).state = .fault ∨ (t.port p).state = .recovery) :
    Run s (t.enterPowering p) := by
  have hoff : (t.port p).state.isOn = false := by
    rcases hs with e | e <;> rw [e] <;> rfl
  refine Run.enterPowering_of (h.port Port.powered ⟨fun hl => ?_, fun _ hp => ?_, fun hp => ?_, fun hq hx => ?_,
    fun _ hd => ?_⟩ fun _ => rfl)
  · exact Port.linesLaw_powered (hl.1 p) hoff rfl rfl rfl rfl
  · exact Port.probeLaw_congr hp rfl rfl rfl
  · refine ⟨hp.1, hp.2.trans (iff_of_true ?_ (by simp [Port.powered]))⟩
    rcases hs with e | e <;> simp [e]
  · have := hq hx
    rcases hs with e | e <;> simp [e] at this
    exact Or.inr (Or.inr ⟨this, Or.inl rfl⟩)
  · rcases hs with e | e <;> simp [e] at hd

/-! ### Trips, recovery and quarantine -/

theorem Run.trip (h : Run s t) (hs : (t.port p).state ≠ .disabled) : Run s (t.trip p) :=
  ((h.shutDown _ _ (Worked.shut rfl rfl rfl rfl rfl rfl rfl rfl
    (fun hp => ⟨hp.1, hp.2.trans (iff_of_true hs (by simp))⟩) fun e => absurd e hs) rfl).raisePort .fault).afterRelease

theorem Run.linkQuarantine (h : Run s t) (hs : (t.port p).state ≠ .disabled) : Run s (t.linkQuarantine p) :=
  ((h.shutDown _ _ (Worked.shut rfl rfl rfl rfl rfl rfl rfl rfl
    (fun hp => ⟨hp.1, hp.2.trans (iff_of_true hs (by simp))⟩) fun e => absurd e hs) rfl).raisePort .quarantine).afterRelease

theorem Run.restart (h : Run s t) (hs : (t.port p).state ≠ .disabled) : Run s (t.restart p) :=
  (h.shutDown _ _ (Worked.shut rfl rfl rfl rfl rfl rfl rfl rfl
    (fun hp => ⟨hp.1, hp.2.trans (iff_of_true hs (by simp))⟩) fun e => absurd e hs) rfl).afterRelease

theorem Run.disable (h : Run s t) : Run s (t.disable p) := by
  unfold State.disable State.setEnabled
  rw [State.modPort_modPort]
  exact (h.shutDown _ _ (Worked.shut rfl rfl rfl rfl rfl rfl rfl rfl
    (fun hp => ⟨hp.1, by simp⟩) fun _ => rfl) rfl).afterRelease

theorem Run.compareReading (h : Run s t) (mA : Nat) (hs : (t.port p).state ≠ .disabled)
    (hon : LinesLaw t → (t.port p).switchOn = true) : Run s (t.compareReading p mA) := by
  have a : ∀ b, Run s (t.modPort p fun q => { q with overcurrent := b }) := fun b => by
    refine h.port _ ⟨fun hl => ?_, fun _ hp => Port.probeLaw_congr hp rfl rfl rfl, id, id, fun _ => id⟩ fun _ => rfl
    obtain ⟨h1, h2, h3⟩ := hl.1 p
    exact ⟨h1, fun e => absurd ((hon hl).symm.trans e) (by simp), h3⟩
  unfold State.compareReading
  split
  · split
    · exact h.trip hs
    · exact a true
  · exact a false

theorem Session.boundSlot_suspend (c : Option Sig) (x : Session) : (x.suspend c).boundSlot = x.boundSlot :=
  x.boundSlot_abandon

theorem Run.enterRecovery (h : Run s t) (hs : (t.port p).state = .occupied) (hf : (t.port p).fixed = true) :
    Run s (t.enterRecovery p) := by
  have w : Worked t p (t.port p).enterRecovery := by
    refine ⟨fun _ => ?_, fun _ _ => ?_, fun hp => ⟨hp.1, hp.2.trans (iff_of_true ?_ (by simp [Port.enterRecovery]))⟩,
      fun _ _ => Or.inr (Or.inr ⟨hf, Or.inr rfl⟩), fun _ hd => ?_⟩
    · exact Port.linesLaw_congr (Port.linesLaw_off (t.port p) .recovery rfl) rfl rfl rfl rfl rfl rfl
    · exact Port.probeLaw_congr (t.port p).probeLaw_switchOff rfl rfl rfl
    · simp [hs]
    · simp [hs] at hd
  have a : Run s (((t.modPort p Port.enterRecovery).withdraw p).raisePort p .recovery) :=
    ((h.port _ w fun _ => Port.bound_map _ (Session.boundSlot_suspend _)).withdraw).raisePort .recovery
  have b : Run s (if t.victim p then (((t.modPort p Port.enterRecovery).withdraw p).raisePort p .recovery).shedSuspended p
      else ((t.modPort p Port.enterRecovery).withdraw p).raisePort p .recovery) := by
    split
    · exact a.shedSuspended
    · exact a
  unfold State.enterRecovery
  dsimp only
  split
  · exact b.afterRelease
  · exact b

theorem Run.overcurrentQuarantine (h : Run s t) (hs : (t.port p).state = .fault) : Run s (t.overcurrentQuarantine p) := by
  refine Run.raisePort (h.port _ ⟨fun hl => ?_, fun _ hp => Port.probeLaw_congr hp rfl rfl rfl, fun hp => ⟨hp.1, ?_⟩,
    fun hq hx => ?_, fun _ hd => ?_⟩ fun _ => rfl) .quarantine
  · obtain ⟨h1, h2⟩ := hl.1 p
    exact ⟨by simp [h1, hs, PortState.isOn], h2⟩
  · exact hp.2.trans (iff_of_true (by simp [hs]) (by simp))
  · have := hq hx
    simp [hs] at this
  · simp [hs] at hd

/-! ### The end of a re-present -/

theorem Run.sessionContinues (h : Run s t) (r : RePresent) (c : Option TrialStep) : Run s (t.sessionContinues p r c) := by
  unfold State.sessionContinues
  split
  · exact h.enterSteady
  · split
    · exact h.recompute
    · split
      · split
        · exact h.startWindow
        · exact h.steadyOutcome
      · exact h.steadyOutcome

theorem Run.closeWindow (h : Run s t) : Run s (t.closeWindow p) := by
  refine h.quiet _ (fun q => ?_) fun q => ?_
  · split <;> exact ⟨rfl, rfl, rfl, rfl, rfl, rfl, rfl, rfl, rfl, rfl, Option.isSome_map⟩
  · split <;> exact Port.bound_map _ fun _ => rfl

theorem Run.resumeContinues (h : Run s t) (r : RePresent) (x : Session) : Run s (t.resumeContinues p r x) := by
  unfold State.resumeContinues
  dsimp only
  split
  · exact h.closeWindow.enterSteady
  · split
    · exact h.closeWindow.recompute
    · split
      · exact h.closeWindow.resettle
      · exact h.closeWindow.steadyOutcome
      · exact h.closeWindow.recompute
      · exact h.closeWindow.recompute

theorem Run.awaitTarget (h : Run s t) : Run s (t.awaitTarget p) := h.modSession _ fun x => by split <;> rfl

theorem Run.continueOccupied (h : Run s t) (r : RePresent) (x : Session) : Run s (t.continueOccupied p r x) := by
  unfold State.continueOccupied
  split
  · split
    · exact h.resumeContinues r x
    · exact h.sessionContinues r _
  · exact h.awaitTarget

theorem Run.continueHeld (h : Run s t) (r : RePresent) (x : Session) : Run s (t.continueHeld p r x) := by
  have a : Run s (t.holdRepresenting p) := h.modSession _ fun _ => rfl
  unfold State.continueHeld
  split
  · exact h.enterSteadyHeld
  · split
    · exact a
    · split
      · split
        · split
          · exact a
          · exact h.enterSteadyHeld
        · exact h.enterSteadyHeld
      · exact h

theorem Run.continueAfter (h : Run s t) (r : RePresent) (before : Port) : Run s (t.continueAfter p r before) := by
  unfold State.continueAfter
  split
  · exact h
  · split
    · exact h.continueOccupied r _
    · exact h.continueHeld r _
    all_goals exact h

theorem Run.rePresentEnd (h : Run s t) (r : RePresent) (hr : (t.port p).rePresent = some r) : Run s (t.rePresentEnd p r) := by
  have w : Worked t p ((t.port p).completeRePresent r) := by
    refine (Worked.present r.target (fun hl => ?_) fun hl hh => ?_).then_quiet
      ⟨rfl, rfl, rfl, rfl, rfl, rfl, rfl, rfl, rfl, rfl, Option.isSome_map⟩
    · by_contra hoff
      obtain ⟨-, h2, -⟩ := (hl.1 p).2.1 (Bool.eq_false_iff.mpr hoff)
      rw [hr] at h2
      cases h2
    · exact ((hl.1 p).2.2.1 hh).2 r hr
  have hb : ((t.port p).completeRePresent r).bound = (t.port p).bound :=
    (Port.bound_map ((t.port p).present r.target) fun _ => by exact rfl).trans (Port.bound_present _ _)
  exact ((h.port (fun q => q.completeRePresent r) w fun _ => hb).reportPresented _).continueAfter r _

/-! ### Binding -/

theorem Run.handOver (h : Run s t) (n : SlotId) (x : Session) : Run s (t.handOver p n x) := by
  have a : Run s (t.modSession p fun y =>
      { y with verdicts := y.verdicts.map fun v => if v.handedOver then { v with folded := true } else v }) :=
    h.modSession _ fun _ => rfl
  have b : ∀ (l : List VerdictEntry) {u : State}, Run s u →
      Run s (l.foldl (fun t v => t.foldRequest n v.sig (v.verdict = .accepted)) u) := fun l => by
    induction l with
    | nil => exact id
    | cons v l ih => exact fun hu => ih (hu.foldRequest _ _ _)
  unfold State.handOver
  dsimp only
  split
  · exact b _ a
  · exact a

/-- The memory as a bind request answered with a slot leaves it (R86, R87). -/
def ProfileMemory.bind (m : ProfileMemory) (i : Identity) : ProfileMemory :=
  match m.find i.vendor i.product with
  | some n => (m.modEntry n fun e => { e.releaseChange i.release with users := e.users + 1 }).toFront n
  | none =>
    match m.room with
    | .vacant n => m.insertFront n (Entry.fresh i.vendor i.product i.release)
    | .evict n => m.insertFront n (Entry.fresh i.vendor i.product i.release)
    | .full => m

/-- The slot that a bind request answers with (R87). -/
def BindAnswer.slot : BindAnswer → Option SlotId
  | .found n => some n
  | .inserted n => some n
  | .full => none

theorem State.memory_bindRequest (t : State) (i : Identity) :
    (t.bindRequest i.vendor i.product i.release).memory = t.memory.bind i := by
  unfold State.bindRequest ProfileMemory.bind
  cases t.memory.find i.vendor i.product with
  | some n => rfl
  | none => cases t.memory.room <;> rfl

theorem ProfileMemory.entry_insertFront (m : ProfileMemory) (n k : SlotId) (e : Entry) :
    (m.insertFront n e).entry k = if k = n then some e else m.entry k :=
  ProfileMemory.entry_setSlot _ _ _ _

/-- What the slots hold after a bind answered with a slot: that slot's entry has one more user than its users were (a slot
taken anew counting 0), every other slot is as it was. -/
theorem ProfileMemory.bind_slots {m : ProfileMemory} {i : Identity} {n : SlotId}
    (h : (m.bindAnswer i.vendor i.product).slot = some n) :
    (∃ e, (m.bind i).entry n = some e ∧
        ((∃ o, m.entry n = some o ∧ e.users = o.users + 1)
          ∨ (e.users = 1 ∧ ∀ o, m.entry n = some o → o.users = 0)))
      ∧ (∀ k, k ≠ n → (m.bind i).entry k = m.entry k) ∧ (m.bind i).threshold = m.threshold := by
  unfold ProfileMemory.bindAnswer at h
  unfold ProfileMemory.bind
  cases hf : m.find i.vendor i.product with
  | some k =>
    rw [hf] at h
    cases h
    obtain ⟨o, ho, -⟩ := ProfileMemory.find_some hf
    refine ⟨⟨{ o.releaseChange i.release with users := o.users + 1 }, ?_, Or.inl ⟨o, ho, rfl⟩⟩, fun k hk => ?_,
      ProfileMemory.threshold_toFront _ _⟩
    · rw [ProfileMemory.entry_toFront, ProfileMemory.entry_modEntry_same, ho]
      rfl
    · rw [ProfileMemory.entry_toFront, ProfileMemory.entry_modEntry_ne _ _ _ _ hk]
  | none =>
    rw [hf] at h
    unfold ProfileMemory.room at h ⊢
    have new : ∀ k, (∀ o, m.entry k = some o → o.users = 0) → k = n →
        (∃ e, (m.insertFront k (Entry.fresh i.vendor i.product i.release)).entry n = some e ∧
          ((∃ o, m.entry n = some o ∧ e.users = o.users + 1)
            ∨ (e.users = 1 ∧ ∀ o, m.entry n = some o → o.users = 0)))
        ∧ (∀ j, j ≠ n → (m.insertFront k (Entry.fresh i.vendor i.product i.release)).entry j = m.entry j)
        ∧ (m.insertFront k (Entry.fresh i.vendor i.product i.release)).threshold = m.threshold := by
      rintro k ho rfl
      refine ⟨⟨_, by rw [ProfileMemory.entry_insertFront, if_pos rfl], Or.inr ⟨rfl, ho⟩⟩, fun j hj => ?_, rfl⟩
      rw [ProfileMemory.entry_insertFront, if_neg hj]
    cases hv : m.vacant with
    | some k =>
      rw [hv] at h
      refine new k (fun o ho => ?_) (Option.some.inj h)
      rw [ProfileMemory.vacant_some hv] at ho
      cases ho
    | none =>
      rw [hv] at h
      cases he : m.evictable with
      | some k =>
        rw [he] at h
        obtain ⟨-, e, hk, -, hu⟩ := ProfileMemory.evictable_some he
        refine new k (fun o ho => ?_) (Option.some.inj h)
        rw [hk] at ho
        cases ho
        exact hu
      | none =>
        rw [he] at h
        cases h

/-- A bind answered with a slot, and the session's bound slot written, keep the users law (R73, R87). -/
theorem UsersLaw.bind (h : UsersLaw t) {i : Identity} {n : SlotId} {f : Port → Port}
    (hn : (t.memory.bindAnswer i.vendor i.product).slot = some n) (hb : (t.port p).bound = none)
    (hf : (f (t.port p)).bound = some n) : UsersLaw (t.workOn p (·.bind i) f) := by
  obtain ⟨⟨e, he, hu⟩, hk, -⟩ := ProfileMemory.bind_slots hn
  have hs := (usersLaw_iff t).mp h
  refine h.workOn (fun k e' he' => ?_) (fun k hk' => ?_) fun k hk' => ?_
  · rw [hb, hf]
    by_cases hkn : k = n
    · subst hkn
      rw [he] at he'
      cases he'
      simp only [reduceCtorEq, if_false, if_true]
      rcases hu with ⟨o, ho, hu⟩ | ⟨hu, ho⟩
      · rw [← hs.1 k o ho]
        omega
      · have : t.boundCount k = 0 := by
          cases hc : t.memory.entry k with
          | none => exact h.boundCount_vacant hc
          | some o => rw [← hs.1 k o hc, ho o hc]
        omega
    · rw [hk k hkn] at he'
      simp [hs.1 k e' he', Ne.symm hkn]
  · by_cases hkn : k = n
    · simp [hkn, he]
    · rw [hk k hkn]
      exact hk'
  · rw [hf] at hk'
    cases hk'
    simp [he]

theorem State.bindRequest_full {i : Identity} (h : (t.memory.bindAnswer i.vendor i.product).slot = none) :
    t.bindRequest i.vendor i.product i.release = t.raiseDevice .pmFull := by
  unfold ProfileMemory.bindAnswer at h
  unfold State.bindRequest
  split at h
  · cases h
  · split at h
    · cases h
    · cases h
    · rfl

/-- A bind request answered with a slot works on the Profile Memory; an eviction is told (R84 to R87). -/
theorem State.bindRequest_slot {i : Identity} {n : SlotId} (h : (t.memory.bindAnswer i.vendor i.product).slot = some n) :
    t.bindRequest i.vendor i.product i.release = t.modMemory (·.bind i)
      ∨ t.bindRequest i.vendor i.product i.release = (t.modMemory (·.bind i)).raiseDevice .pmEvict := by
  unfold ProfileMemory.bindAnswer at h
  cases hf : t.memory.find i.vendor i.product with
  | some n => simp [State.bindRequest, ProfileMemory.bind, State.modMemory, hf]
  | none =>
    cases hr : t.memory.room with
    | vacant n => simp [State.bindRequest, ProfileMemory.bind, State.modMemory, hf, hr]
    | evict n => simp [State.bindRequest, ProfileMemory.bind, State.modMemory, hf, hr]
    | full => simp [hf, hr, BindAnswer.slot] at h

/-- A bind request of an unbound session, with its hand-over (R104 to R106). -/
theorem Run.bindSession (h : Run s t) (x : Session) (i : Identity) (hx : (t.port p).session.isSome = true)
    (hb : (t.port p).bound = none) : Run s (t.bindSession p x i) := by
  unfold State.bindSession
  cases hn : (t.memory.bindAnswer i.vendor i.product).slot with
  | none =>
    rw [State.bindRequest_full hn]
    have hfull : t.memory.bindAnswer i.vendor i.product = .full := by
      cases ha : t.memory.bindAnswer i.vendor i.product <;> simp_all [BindAnswer.slot]
    rw [hfull]
    exact h.raiseDevice .pmFull
  | some n =>
    have htake : ∀ u : State, u.takeAnswer p x (t.memory.bindAnswer i.vendor i.product)
        = (u.modSession p fun y => { y with boundSlot := some n }).handOver p n x := fun u => by
      cases ha : t.memory.bindAnswer i.vendor i.product <;> simp_all [BindAnswer.slot, State.takeAnswer]
    have hm : t.memory.law → (t.memory.bind i).law := fun hl => by
      have := MemoryLaw.bindRequest (s := t) hl i.vendor i.product i.release
      rwa [MemoryLaw, State.memory_bindRequest] at this
    have a : Run s ((t.modMemory (·.bind i)).modSession p fun y => { y with boundSlot := some n }) := by
      refine h.work p (·.bind i) (fun q => { q with session := q.session.map fun y => { y with boundSlot := some n } })
        (Worked.of_quiet ⟨rfl, rfl, rfl, rfl, rfl, rfl, rfl, rfl, rfl, rfl, Option.isSome_map⟩) hm
        (ProfileMemory.bind_slots hn).2.2 fun _ hu => hu.bind hn hb ?_
      obtain ⟨y, hy⟩ := Option.isSome_iff_exists.mp hx
      simp [Port.bound, hy]
    rw [htake]
    rcases State.bindRequest_slot hn with e | e
    · rw [e]
      exact a.handOver n x
    · rw [e]
      exact (a.raiseDevice .pmEvict).handOver n x

theorem Run.postBinding (h : Run s t) {x : Session} (hx : (t.port p).session = some x) (i : Identity) :
    Run s (t.postBinding p x i) := by
  have a : Run s (t.setIdentity p i) := h.modSession _ fun _ => rfl
  have ha : (t.setIdentity p i).port p = { t.port p with session := some { x with identity := some i } } := by
    rw [State.setIdentity, State.port_modSession_same, hx]
    rfl
  unfold State.postBinding Session.postKind
  dsimp only
  cases hb : x.boundSlot with
  | none =>
    refine a.bindSession x i ?_ ?_
    · rw [ha]
      rfl
    · rw [ha]
      simpa [Port.bound] using hb
  | some n =>
    by_cases hk : x.sameKey i = true
    · simp only [hk, if_true]
      exact a.confirmRequest _ _
    · have hn : ((t.setIdentity p i).port p).bound = some n := by
        rw [ha]
        simpa [Port.bound] using hb
      have b : Run s ((t.setIdentity p i).unbindForRebind p n) := by
        refine a.work p (ProfileMemory.unbind (some n))
          (fun q => { q with session := q.session.map fun y => { y with boundSlot := none } })
          (Worked.of_quiet ⟨rfl, rfl, rfl, rfl, rfl, rfl, rfl, rfl, rfl, rfl, Option.isSome_map⟩)
          (fun hm => ProfileMemory.law_unbind hm _) rfl fun _ hu => ?_
        have := hu.unbind (p := p) (f := fun q => { q with session := q.session.map fun y => { y with boundSlot := none } })
          (by rw [ha]; rfl)
        rwa [hn] at this
      simp only [hk, Bool.false_eq_true, if_false]
      have hp : ((t.setIdentity p i).unbindForRebind p n).port p
          = { t.port p with session := some { { x with identity := some i } with boundSlot := none } } := by
        rw [State.unbindForRebind, State.port_modSession_same, State.unbindRequest, State.port_modMemory, ha]
        rfl
      refine Run.raisePort (b.bindSession x i ?_ ?_) .identity
      · rw [hp]
        rfl
      · rw [hp]
        rfl

theorem Run.postActs (h : Run s t) (calls : Bool) : Run s (t.postActs p calls) := by
  unfold State.postActs
  split
  · exact (h.modTimers _ fun _ => by exact rfl).beginTrials
  · split
    · exact h.computationCall
    · exact h

theorem Run.takeIdentity (h : Run s t) {x : Session} (hx : (t.port p).session = some x) (i : Identity) :
    Run s (t.takeIdentity p x i) := (h.postBinding hx i).postActs _

theorem Run.retry (h : Run s t) : Run s (t.retry p) := ((h.modSession _ fun _ => by exact rfl).compute _).takeStep

theorem Run.tellPorts (n : Nat) (h : Run s t) (l : List PortId) : Run s (State.tellPorts n t l) := by
  induction n generalizing t l with
  | zero => exact h
  | succ n ih =>
    rcases l with _ | ⟨a, _ | ⟨b, l⟩⟩
    · exact h
    · exact h.computationCall
    · simp only [State.tellPorts]
      split
      · exact ih h.spendChoice.computationCall _
      · exact h

end Sys2Proof.Machine
end

section
/-! SUPPORT and PROOFS. Every command, every clock tick and so every step as a run; the laws that follow. -/

namespace Sys2Proof.Machine

variable {s t : State} {p : PortId}

theorem Run.trans {u : State} (h : Run s t) (g : Run t u) : Run s u := by
  induction g with
  | refl => exact h
  | work p m f _ hw hm ht hu ih => exact ih.work p m f hw hm ht hu
  | budget b _ hb ih => exact ih.budget b hb
  | notices n _ hn ih => exact ih.notices n hn
  | host x _ hx ih => exact ih.host x hx
  | choice n _ ih => exact ih.choice n
  | queue l _ ih => exact ih.queue l
  | globals a b _ ha hb ih => exact ih.globals a b ha hb
  | reset m x _ hm ht hu ih => exact ih.reset m x hm ht hu
  | tick _ ih => exact ih.tick

/-! ### Resets -/

@[simp] theorem ProfileMemory.entry_keep (m : ProfileMemory) (n : SlotId) :
    m.keep.entry n = (m.entry n).map Entry.unused := by
  simp [ProfileMemory.entry, ProfileMemory.keep]

theorem ProfileMemory.law_keep {m : ProfileMemory} (h : m.law) : m.keep.law := by
  obtain ⟨a, b, c, d⟩ := h
  refine ⟨a, fun n => ?_, fun n k e f hn hk => ?_, fun n e hn => ?_⟩
  · rw [ProfileMemory.entry_keep, Option.isSome_map]
    exact b n
  · rw [ProfileMemory.entry_keep] at hn hk
    obtain ⟨e', he, rfl⟩ := Option.map_eq_some_iff.mp hn
    obtain ⟨f', hf, rfl⟩ := Option.map_eq_some_iff.mp hk
    exact c n k e' f' he hf
  · rw [ProfileMemory.entry_keep] at hn
    obtain ⟨e', he, rfl⟩ := Option.map_eq_some_iff.mp hn
    exact d n e' he

@[simp] theorem ProfileMemory.entry_reset (n : SlotId) : ProfileMemory.reset.entry n = none := by
  simp [ProfileMemory.entry, ProfileMemory.reset]

theorem ProfileMemory.law_reset : ProfileMemory.reset.law :=
  ⟨List.nodup_nil, fun n => by simp [ProfileMemory.reset, ProfileMemory.entry], fun n k e f hn => by simp at hn,
    fun n e hn => by simp at hn⟩

theorem Run.resetKeeping (h : Run s t) (x : HostPort) : Run s { t.resetKeeping with host := x } :=
  h.reset t.memory.keep x (fun hm => ProfileMemory.law_keep hm) rfl fun n e he => by
    rw [ProfileMemory.entry_keep] at he
    obtain ⟨e', -, rfl⟩ := Option.map_eq_some_iff.mp he
    rfl

theorem Run.resetAll (h : Run s t) (x : HostPort) : Run s { t.resetAll with host := x } :=
  h.reset ProfileMemory.reset x (fun _ => ProfileMemory.law_reset) rfl fun n e he => by simp at he

/-! ### Settings and policy records -/

theorem policyOf_eq_some {b : Bool} {r : PolicyBytes} {n : Policy} (h : policyOf b r = some n) :
    n.inRange ∧ n.enabled = b := by
  unfold policyOf at h
  split at h
  · split at h
    · rename_i hv
      cases h
      simp only [policyRangesValid, byteWithin, Bool.and_eq_true, decide_eq_true_eq] at hv
      obtain ⟨⟨⟨⟨⟨⟨⟨⟨⟨hpr, -⟩, hew⟩, hhc⟩, hiw⟩, hlt⟩, hto⟩, hrl⟩, hfr⟩, htl⟩ := hv
      exact ⟨⟨hpr.2, htl, hew, hhc, hiw.2, Nat.le_of_lt_succ r.powerGood.isLt, hlt.2, hto.2, hrl, hfr.2⟩, rfl⟩
    · cases h
  · cases h

theorem Run.writePolicy (h : Run s t) {r : Policy} {b : PolicyBytes} (hr : policyOf (t.port p).policy.enabled b = some r) :
    Run s (t.writePolicy p r) := by
  obtain ⟨hin, hen⟩ := policyOf_eq_some hr
  refine h.port _ ⟨fun hl => ?_, fun _ hp => ?_, fun hp => ⟨hin, ?_⟩, id, fun _ => id⟩ fun _ => rfl
  · exact Port.linesLaw_congr (hl.1 p) rfl rfl rfl rfl rfl rfl
  · exact Port.probeLaw_congr hp rfl rfl rfl
  · exact (show r.enabled = true ↔ _ by rw [hen]; exact hp.2)

/-! ### Enable -/

/-- The port unit as Enable Port puts it into POWERING (R18, R162). -/
def Port.enabledOn (q : Port) : Port :=
  { q with
    policy := { q.policy with enabled := true }
    fixed := q.policy.fixedDevice
    switchOn := true
    state := .powering
    timers := { q.timers with powerGood := some q.policy.powerGood } }

/-- Enable Port as one change of the unit and the end of a power-good wait of 0 (R18, R20). -/
theorem State.enable_eq (t : State) (p : PortId) :
    t.enable p = if (t.port p).policy.powerGood = 0 then ((t.setGrant p baseGrant).modPort p Port.enabledOn).powerGoodEnd p
      else (t.setGrant p baseGrant).modPort p Port.enabledOn := by
  unfold State.enable State.setEnabled
  rw [State.modPort_modPort, State.enterPowering_eq, State.modPort_modPort, State.port_modPort_same]
  rfl

theorem Run.enable (h : Run s t) (hs : (t.port p).state = .disabled) (hr : t.host.inReset = false) :
    Run s (t.enable p) := by
  have hoff : (t.port p).state.isOn = false := by rw [hs]; rfl
  have a : Run s ((t.setGrant p baseGrant).modPort p Port.enabledOn) := by
    refine (h.setGrant baseGrant).port Port.enabledOn ⟨fun hl => ?_, fun _ hp => ?_, fun hp => ⟨hp.1, ?_⟩,
      fun hq hx => ?_, fun he => ?_⟩ fun _ => rfl
    · exact Port.linesLaw_powered (hl.1 p) hoff rfl rfl rfl rfl
    · exact Port.probeLaw_congr hp rfl rfl rfl
    · exact iff_of_true rfl (by simp [Port.enabledOn])
    · have := hq hx
      simp [hs] at this
    · rw [State.host_setGrant, hr] at he
      cases he
  rw [State.enable_eq]
  split
  · exact a.powerGoodEnd (by rw [State.port_modPort_same]; rfl)
  · exact a

/-! ### The host operations on the Profile Memory -/

theorem usersLaw_modMemory (m : ProfileMemory → ProfileMemory)
    (hc : ∀ n e, (m t.memory).entry n = some e → e.users = t.boundCount n)
    (hk : ∀ n, t.boundCount n = 0 ∨ ((m t.memory).entry n).isSome = true) : UsersLaw (t.modMemory m) := by
  refine (usersLaw_iff _).mpr ⟨hc, fun q n hq => ?_⟩
  rcases hk n with e | e
  · rw [State.boundCount_split t q n, if_pos (show (t.port q).bound = some n from hq)] at e
    omega
  · exact e

/-- A slot that is not in use has no users (R73). -/
theorem UsersLaw.boundCount_spare (h : UsersLaw t) {n : SlotId} (hn : ∀ e, t.memory.entry n = some e → e.users = 0) :
    t.boundCount n = 0 := by
  cases he : t.memory.entry n with
  | none => exact h.boundCount_vacant he
  | some e => rw [← ((usersLaw_iff t).mp h).1 n e he, hn e he]

theorem UsersLaw.users_or (h : UsersLaw t) (n : SlotId) : t.boundCount n = 0 ∨ (t.memory.entry n).isSome = true := by
  cases he : t.memory.entry n with
  | none => exact Or.inl (h.boundCount_vacant he)
  | some e => exact Or.inr rfl

theorem ProfileMemory.entry_insertTail (m : ProfileMemory) (n k : SlotId) (e : Entry) :
    (m.insertTail n e).entry k = if k = n then some e else m.entry k :=
  ProfileMemory.entry_setSlot _ _ _ _

theorem ProfileMemory.entry_vacate (m : ProfileMemory) (n k : SlotId) :
    (m.vacate n).entry k = if k = n then none else m.entry k :=
  ProfileMemory.entry_setSlot _ _ _ _

theorem Run.insertTail (h : Run s t) {n : SlotId} {e : Entry} (hv : e.tallies.valid = true) (hu : e.users = 0)
    (hf : t.memory.find e.vendor e.product = none) (hn : ∀ o, t.memory.entry n = some o → o.users = 0) :
    Run s (t.modMemory (·.insertTail n e)) := by
  refine h.modMemory _ (fun hm => ProfileMemory.law_insertTail hm n e hv fun k o _ ho => ProfileMemory.find_none hf k o ho)
    rfl fun hl => usersLaw_modMemory _ (fun k o ho => ?_) fun k => ?_
  · rw [ProfileMemory.entry_insertTail] at ho
    split at ho
    · rename_i hk
      cases ho
      rw [hu, hk, hl.boundCount_spare hn]
    · exact ((usersLaw_iff t).mp hl).1 k o ho
  · rw [ProfileMemory.entry_insertTail]
    split
    · exact Or.inr rfl
    · exact hl.users_or k

theorem Run.vacate (h : Run s t) {n : SlotId} (hn : ∀ o, t.memory.entry n = some o → o.users = 0) :
    Run s (t.modMemory (·.vacate n)) := by
  refine h.modMemory _ (fun hm => ProfileMemory.law_vacate hm n) rfl fun hl => usersLaw_modMemory _ (fun k o ho => ?_) fun k => ?_
  · rw [ProfileMemory.entry_vacate] at ho
    split at ho
    · cases ho
    · exact ((usersLaw_iff t).mp hl).1 k o ho
  · rw [ProfileMemory.entry_vacate]
    split
    · rename_i hk
      exact Or.inl (hk ▸ hl.boundCount_spare hn)
    · exact hl.users_or k

theorem ProfileMemory.inUse_eq_false {m : ProfileMemory} {n : SlotId} (h : m.inUse n = false) (e : Entry)
    (he : m.entry n = some e) : e.users = 0 := by
  simpa [ProfileMemory.inUse, he] using h

theorem importEntry_eq_some {b : ImportBytes} {e : Entry} (h : importEntry b = some e) :
    e.tallies.valid = true ∧ e.users = 0 ∧ e.vendor = b.vendor ∧ e.product = b.product := by
  unfold importEntry at h
  split at h
  · cases h
  · split at h
    · cases h
      exact ⟨‹_›, rfl, rfl, rfl⟩
    · cases h

/-- What the rows of R93 that write find: an insert or an eviction finds the key held nowhere and the slot spare. -/
theorem ProfileMemory.writeCase_slot {m : ProfileMemory} {v d : Half} {target : Option SlotId} {n : SlotId}
    (h : m.writeCase v d target = .insert n ∨ m.writeCase v d target = .evict n) :
    m.find v d = none ∧ ∀ o, m.entry n = some o → o.users = 0 := by
  unfold ProfileMemory.writeCase at h
  cases hf : m.find v d with
  | some k =>
    rw [hf] at h
    cases target <;> dsimp only at h <;> (repeat' split at h) <;> simp at h
  | none =>
    rw [hf] at h
    refine ⟨rfl, fun o ho => ?_⟩
    cases target with
    | some k =>
      dsimp only at h
      split at h
      · simp at h
      · rename_i hu
        have hkn : k = n := by simpa using h
        exact ProfileMemory.inUse_eq_false (by simpa using hu) o (hkn ▸ ho)
    | none =>
      unfold ProfileMemory.room at h
      cases hv : m.vacant with
      | some k =>
        have hkn : k = n := by simpa [hv] using h
        rw [← hkn, ProfileMemory.vacant_some hv] at ho
        cases ho
      | none =>
        cases he : m.evictable with
        | some k =>
          have hkn : k = n := by simpa [hv, he] using h
          obtain ⟨-, e, hk, -, hu⟩ := ProfileMemory.evictable_some he
          rw [← hkn, hk] at ho
          cases ho
          exact hu
        | none => simp [hv, he] at h

theorem Run.write (h : Run s t) (tag : Byte) {b : ImportBytes} {e : Entry} (he : importEntry b = some e)
    (target : Option SlotId) : Run s (t.write tag e target) := by
  obtain ⟨hv, hu, -, -⟩ := importEntry_eq_some he
  unfold State.write
  cases hw : t.memory.writeCase e.vendor e.product target with
  | duplicate => exact h.respond _ _ _ _
  | inUse => exact h.respond _ _ _ _
  | replace n =>
    refine Run.respond (h.modMemory _ (fun hm => ?_) rfl fun hl => ?_) _ _ _ _
    · exact ProfileMemory.law_modEntry hm n _ (fun o => ⟨rfl, rfl⟩) fun _ _ => hv
    · exact hl.modEntry n e.replacedBy id (fun _ => rfl) fun _ => rfl
  | insert n =>
    obtain ⟨hf, hn⟩ := ProfileMemory.writeCase_slot (Or.inl hw)
    exact (h.insertTail hv hu hf hn).respond _ _ _ _
  | evict n =>
    obtain ⟨hf, hn⟩ := ProfileMemory.writeCase_slot (Or.inr hw)
    exact ((h.insertTail hv hu hf hn).raiseDevice .pmEvict).respond _ _ _ _
  | full => exact (h.raiseDevice .pmFull).respond _ _ _ _

/-- The memory with a pin set and its entry at the front (R95, R96). -/
def ProfileMemory.setPin (n : SlotId) (pin : Option Sig) (m : ProfileMemory) : ProfileMemory :=
  (m.modEntry n fun e => { e with pinned := pin }).toFront n

theorem Run.setPin (h : Run s t) {n : SlotId} (pin : Option Sig) (hn : (t.memory.entry n).isSome = true) :
    Run s (t.setPin n pin) := by
  have a : Run s (t.modMemory (·.setPin n pin)) := by
    refine h.modMemory _ (fun hm => ?_) (ProfileMemory.threshold_toFront _ _) fun hl => ?_
    · exact ProfileMemory.law_modEntry_toFront hm n _ hn (fun _ => ⟨rfl, rfl⟩) fun _ => id
    · exact hl.modEntry n _ (·.toFront n) (fun _ => rfl) fun k => ProfileMemory.entry_toFront _ _ _
  unfold State.setPin
  dsimp only
  split
  · exact Run.tellPorts _ a _
  · exact a

/-- The slots after a clear (R97). -/
theorem ProfileMemory.entry_clear (m : ProfileMemory) (b : Bool) (n : SlotId) :
    (m.clear b).entry n = slotAfterClear b (m.entry n) := by
  unfold ProfileMemory.clear
  split
  · rename_i h
    have hn : ¬(m.entry n).any (Entry.cleared b) = true := fun e => by
      have : n ∈ m.clearedSlots b := List.mem_filter.mpr ⟨List.mem_finRange n, e⟩
      rw [h] at this
      cases this
    simp [slotAfterClear, hn]
  · simp [ProfileMemory.setRecency, ProfileMemory.entry]

theorem slotAfterClear_eq_some {b : Bool} {o : Option Entry} {e : Entry} (h : slotAfterClear b o = some e) :
    o = some e ∧ Entry.cleared b e = false := by
  unfold slotAfterClear at h
  split at h
  · cases h
  · rename_i hc
    subst h
    exact ⟨rfl, by simpa using hc⟩

theorem Entry.users_of_cleared {b : Bool} {e : Entry} (h : Entry.cleared b e = true) : e.users = 0 := by
  simp only [Entry.cleared, Bool.and_eq_true, beq_iff_eq] at h
  exact h.1

theorem ProfileMemory.recency_clear (m : ProfileMemory) (b : Bool) :
    (m.clear b).recency = m.recency.filter fun n : SlotId => !(m.entry n).any (Entry.cleared b) := by
  unfold ProfileMemory.clear
  split
  · rename_i h
    refine (List.filter_eq_self.mpr fun n _ => ?_).symm
    by_contra hn
    have : n ∈ m.clearedSlots b := List.mem_filter.mpr ⟨List.mem_finRange n, by simpa using hn⟩
    rw [h] at this
    cases this
  · rfl

theorem ProfileMemory.law_clear {m : ProfileMemory} (hm : m.law) (b : Bool) : (m.clear b).law := by
  have hr := ProfileMemory.recency_clear m b
  obtain ⟨hnd, hmem, hkey, hval⟩ := hm
  have key : ∀ n e, (m.clear b).entry n = some e → m.entry n = some e := fun n e he => by
    rw [ProfileMemory.entry_clear] at he
    exact (slotAfterClear_eq_some he).1
  refine ⟨?_, fun n => ?_, fun n k e f hn hk => hkey n k e f (key n e hn) (key k f hk), fun n e hn => hval n e (key n e hn)⟩
  · rw [hr]
    exact hnd.filter _
  · rw [hr, List.mem_filter, hmem, ProfileMemory.entry_clear]
    cases m.entry n with
    | none => simp [slotAfterClear]
    | some e => cases hc : Entry.cleared b e <;> simp [slotAfterClear, hc]

@[simp] theorem ProfileMemory.threshold_clear (m : ProfileMemory) (b : Bool) : (m.clear b).threshold = m.threshold := by
  unfold ProfileMemory.clear
  split <;> rfl

theorem Run.clear (h : Run s t) (b : Bool) : Run s (t.modMemory (·.clear b)) := by
  refine h.modMemory _ (fun hm => ProfileMemory.law_clear hm b) (ProfileMemory.threshold_clear _ _)
    fun hl => usersLaw_modMemory _ (fun n e he => ?_) fun n => ?_
  · rw [ProfileMemory.entry_clear] at he
    exact ((usersLaw_iff t).mp hl).1 n e (slotAfterClear_eq_some he).1
  · rw [ProfileMemory.entry_clear]
    cases he : t.memory.entry n with
    | none => exact Or.inl (hl.boundCount_vacant he)
    | some e =>
      cases hc : Entry.cleared b e with
      | false => exact Or.inr (by simp [slotAfterClear, hc])
      | true =>
        refine Or.inl (hl.boundCount_spare fun o ho => ?_)
        rw [he] at ho
        cases ho
        exact Entry.users_of_cleared hc

/-! ### The notice commands -/

theorem within_and (a b c : Half) (ha : a &&& ~~~c = 0) : (a &&& b) &&& ~~~c = 0 := by
  have e : (a &&& b) &&& ~~~c = (a &&& ~~~c) &&& b := by
    rw [BitVec.and_assoc, BitVec.and_comm b, ← BitVec.and_assoc]
  rw [e, ha]
  exact BitVec.zero_and

theorem Run.clearNotices (h : Run s t) (g : GroupId) (kinds : Half) : Run s (t.clearNotices g kinds) := by
  refine h.notices _ fun hn => ⟨rfl, fun i => ?_, hn.2.2⟩
  have e := State.group_clearNotices t g i kinds
  rw [show State.group { t with notices := t.notices.clear g kinds } i = (t.clearNotices g kinds).group i from rfl, e]
  split
  · rename_i hi
    subst hi
    exact within_and _ _ _ (hn.2.1 i)
  · exact hn.2.1 i

theorem Run.setMask (h : Run s t) {kinds : Half} (hk : kindsWithin kinds allKinds = true) :
    Run s { t with notices := t.notices.setMask kinds } :=
  h.notices _ fun hn => ⟨rfl, hn.2.1, (kindsWithin_iff _ _).mp hk⟩

/-! ### Host commands -/

theorem Run.onPort (h : Run s t) (tag code b : Byte) (f : PortId → State) (hf : ∀ p, Run s (f p)) :
    Run s (t.onPort tag code b f) := by
  unfold State.onPort
  split
  · exact h.respond _ _ _ _
  · exact hf _

theorem globalsValid_ranges {a b : Byte} (h : globalsValid a b = true) :
    (2 ≤ a.toNat ∧ a.toNat ≤ 7) ∧ 1 ≤ b.toNat ∧ b.toNat ≤ 15 := by
  obtain ⟨h1, h2, h3, h4⟩ := (globalsValid_iff a b).mp h
  exact ⟨⟨h1, h2⟩, h3, h4⟩

/-- A host command is a run (R193). -/
theorem Run.carryOut (h : Run s t) (hr : t.host.inReset = false) (c : Instr) : Run s (t.carryOut c) := by
  cases c with
  | getInfo tag => exact h.respond _ _ _ _
  | getDeviceStatus tag => exact h.respond _ _ _ _
  | setBudget tag total =>
    change Run s (t.setBudget tag total)
    unfold State.setBudget
    split
    · exact h.respond _ _ _ _
    · split
      · exact h.respond _ _ _ _
      · split
        · exact (h.applyTotal _).respond _ _ _ _
        · exact (h.startShed _).respond _ _ _ _
  | setGlobals tag a b =>
    change Run s (t.setGlobals tag a b)
    unfold State.setGlobals
    split
    · rename_i hv
      exact (h.globals _ _ (globalsValid_ranges hv).1 (globalsValid_ranges hv).2).respond _ _ _ _
    · exact h.respond _ _ _ _
  | getGlobals tag => exact h.respond _ _ _ _
  | resetDevice tag => exact (h.resetKeeping t.host).respond _ _ _ _
  | setPolicy tag port record =>
    refine h.onPort _ _ _ _ fun p => ?_
    split
    · exact h.respond _ _ _ _
    · rename_i hp
      split
      · exact h.respond _ _ _ _
      · exact (h.writePolicy hp).respond _ _ _ _
  | getPolicy tag port => exact h.onPort _ _ _ _ fun p => h.respond _ _ _ _
  | enablePort tag port =>
    refine h.onPort _ _ _ _ fun p => ?_
    split
    · exact h.respond _ _ _ _
    · rename_i hs
      split
      · exact h.respond _ _ _ _
      · split
        · exact h.respond _ _ _ _
        · exact (h.enable (by simpa using hs) hr).respond _ _ _ _
  | disablePort tag port =>
    refine h.onPort _ _ _ _ fun p => ?_
    split
    · exact h.respond _ _ _ _
    · exact h.disable.respond _ _ _ _
  | getPort tag port => exact h.onPort _ _ _ _ fun p => h.respond _ _ _ _
  | postIdentity tag port v d r =>
    refine h.onPort _ _ _ _ fun p => ?_
    split
    · rename_i hx
      exact (h.takeIdentity hx _).respond _ _ _ _
    · exact h.respond _ _ _ _
  | retryTrials tag port =>
    refine h.onPort _ _ _ _ fun p => ?_
    split
    · exact h.retry.respond _ _ _ _
    · exact h.respond _ _ _ _
  | resetPort tag port =>
    refine h.onPort _ _ _ _ fun p => ?_
    split
    · exact h.respond _ _ _ _
    · rename_i hs
      exact (h.restart hs).respond _ _ _ _
  | pmLookup tag v d =>
    change Run s (t.pmLookup tag v d)
    unfold State.pmLookup
    split
    · exact h.respond _ _ _ _
    · exact h.respond _ _ _ _
  | pmRead tag n =>
    change Run s (t.pmRead tag n)
    unfold State.pmRead
    split
    · exact h.respond _ _ _ _
    · split
      · exact h.respond _ _ _ _
      · exact h.respond _ _ _ _
  | pmWrite tag e =>
    change Run s (t.pmWrite tag e)
    unfold State.pmWrite
    split
    · rename_i he _
      exact h.write tag he _
    · exact h.respond _ _ _ _
  | pmRetire tag v d =>
    change Run s (t.pmRetire tag v d)
    unfold State.pmRetire
    split
    · exact h.respond _ _ _ _
    · split
      · exact h.respond _ _ _ _
      · rename_i hu
        split
        · exact h.respond _ _ _ _
        · exact (h.vacate fun o ho => ProfileMemory.inUse_eq_false (by simpa using hu) o ho).respond _ _ _ _
  | pmPin tag v d g =>
    change Run s (t.pmPin tag v d g)
    unfold State.pmPin
    split
    · exact h.respond _ _ _ _
    · split
      · exact h.respond _ _ _ _
      · rename_i hf
        obtain ⟨e, he, -⟩ := ProfileMemory.find_some hf
        exact (h.setPin _ (by simp [he])).respond _ _ _ _
  | pmUnpin tag v d =>
    change Run s (t.pmUnpin tag v d)
    unfold State.pmUnpin
    split
    · exact h.respond _ _ _ _
    · rename_i hf
      obtain ⟨e, he, -⟩ := ProfileMemory.find_some hf
      exact (h.setPin _ (by simp [he])).respond _ _ _ _
  | pmClear tag o =>
    change Run s (t.pmClear tag o)
    unfold State.pmClear
    split
    · exact h.respond _ _ _ _
    · exact (h.clear _).respond _ _ _ _
  | pmOrder tag g =>
    change Run s (t.pmOrder tag g)
    unfold State.pmOrder
    split
    · exact h.respond _ _ _ _
    · exact h.respond _ _ _ _
  | readNotices tag => exact h.respond _ _ _ _
  | ackNotices tag g k e =>
    change Run s (t.ackNotices tag g k e)
    unfold State.ackNotices State.acknowledge
    split
    · exact h.respond _ _ _ _
    · split
      · split
        · exact (h.clearNotices _ _).respond _ _ _ _
        · exact h.respond _ _ _ _
      · exact h.respond _ _ _ _
  | setNoticeMask tag k =>
    change Run s (t.setNoticeMask tag k)
    unfold State.setNoticeMask
    split
    · rename_i hk
      exact (h.setMask hk).respond _ _ _ _
    · exact h.respond _ _ _ _
  | _ => exact h

theorem Run.taking (h : Run s t) (f : State → State) (hf : t.host.inReset = false → Run s (f t)) : Run s (t.taking f) := by
  unfold State.taking
  split
  · exact h
  · rename_i hr
    exact hf (by simpa using hr)

theorem Run.running (h : Run s t) (f : State → State) (hf : Run s (f t)) : Run s (t.running f) := by
  unfold State.running
  split
  · exact h
  · exact hf

theorem Run.takeFrame (h : Run s t) (hr : t.host.inReset = false) (bytes : List Byte) : Run s (t.takeFrame bytes) := by
  unfold State.takeFrame
  split
  · exact h
  · split
    · exact h.respond _ _ _ _
    · exact h.carryOut hr _

theorem HostPort.inReset_addressed (h : HostPort) (b : Byte) : (h.addressed b).inReset = h.inReset := by
  unfold HostPort.addressed
  (repeat' split) <;> rfl

theorem HostPort.inReset_dataByte (h : HostPort) (b : Byte) : (h.dataByte b).inReset = h.inReset := by
  unfold HostPort.dataByte
  split <;> rfl

/-! ### Pins -/

/-- A pin level that no law of one port reads. -/
theorem Run.modPins (h : Run s t) (f : Pins → Pins) (hf : ∀ x, (f x).hen = x.hen) : Run s (t.modPins p f) :=
  h.quiet _ (fun _ => ⟨rfl, rfl, rfl, rfl, rfl, rfl, hf _, rfl, rfl, rfl, rfl⟩) fun _ => rfl

/-- A change of HENn's level with what it does at the lines. -/
theorem Worked.hub {q' : Port} (hl : LinesLaw s → q'.linesLaw) (hpr : LinesLaw s → (s.port p).probeLaw → q'.probeLaw)
    (hs : q'.state = (s.port p).state) (hf : q'.fixed = (s.port p).fixed) (hp : q'.policy = (s.port p).policy)
    (hx : q'.session.isSome = (s.port p).session.isSome) : Worked s p q' where
  lines := hl
  probe := hpr
  policy h := by
    unfold Port.policyLaw
    rw [hp, hs]
    exact h
  seated h := by
    unfold Port.seated
    rw [hx, hs, hf]
    exact h
  stays _ h := hs.trans h

theorem Port.bound_hubTakesLines (q : Port) : q.hubTakesLines.bound = q.bound := by
  have hl : q.hubLines.bound = q.bound := by
    unfold Port.hubLines
    split
    · split
      · rfl
      · exact q.bound_goNeutral
    · rfl
  exact (Port.bound_map q.hubLines (f := Session.hubTaken) fun x => x.boundSlot_abandon).trans hl

/-- Nothing charge-only is on the lines when HENn rising takes nothing (R5). -/
theorem Port.hubTakes_eq_false {q : Port} (hl : q.linesLaw) (h : q.hubTakes = false) :
    (∀ c, q.presented = some c → c.chargeOnly = false) ∧ ∀ r, q.rePresent = some r → r.target.chargeOnly = false := by
  have hc := q.hubLines_clears hl.2.2.2
  rwa [show q.hubLines = q by simp [Port.hubLines, h]] at hc

/-- HENn rising at a port whose lines it takes (R5). -/
theorem Worked.hubTakesLines (ht : (s.port p).hubTakes = true) :
    Worked s p ({ s.port p with pins := { (s.port p).pins with hen := true } } : Port).hubTakesLines := by
  have hq : ∀ (f : Port → Prop), (∀ r, (s.port p).rePresent = some r → f
      { s.port p with pins := { (s.port p).pins with hen := true }, rePresent := some (r.retarget .P .hub true) }) →
      ((s.port p).rePresent = none → f
        (({ s.port p with pins := { (s.port p).pins with hen := true } } : Port).startRePresent .P .hub true)) →
      f ({ s.port p with pins := { (s.port p).pins with hen := true } } : Port).hubLines := fun f h1 h2 => by
    unfold Port.hubLines
    rw [if_pos (show ({ s.port p with pins := { (s.port p).pins with hen := true } } : Port).hubTakes = true from ht)]
    dsimp only
    split
    · rename_i r hr
      exact h1 r hr
    · rename_i hr
      exact h2 hr
  have hon : LinesLaw s → (s.port p).switchOn = true := fun hl => by
    by_contra hoff
    obtain ⟨h1, h2, -⟩ := (hl.1 p).2.1 (Bool.eq_false_iff.mpr hoff)
    simp [Port.hubTakes, h1, h2] at ht
  have hkeep := hq (fun q => q.state = (s.port p).state ∧ q.fixed = (s.port p).fixed ∧ q.policy = (s.port p).policy
      ∧ q.session.isSome = (s.port p).session.isSome) (fun _ _ => ⟨rfl, rfl, rfl, rfl⟩)
      fun _ => ⟨rfl, rfl, rfl, Option.isSome_map⟩
  refine Worked.hub (fun hl => ?_) (fun _ hp => ?_) hkeep.1 hkeep.2.1 hkeep.2.2.1 (Option.isSome_map.trans hkeep.2.2.2)
  · refine Port.linesLaw_congr (q := Port.hubLines _) ?_ rfl rfl rfl rfl rfl rfl
    obtain ⟨h1, h2, h3, h4⟩ := hl.1 p
    refine hq Port.linesLaw (fun r hr => ?_) fun hr => ?_
    · have hn := h4 (by simp [hr])
      simp [Port.linesLaw, h1, hn, RePresent.retarget, Sig.chargeOnly, h1 ▸ hon hl]
    · simp [Port.linesLaw, Port.startRePresent, Port.goNeutral, h1, Sig.chargeOnly, h1 ▸ hon hl]
  · refine Port.probeLaw_congr (q := Port.hubLines _) ?_ rfl rfl rfl
    refine hq Port.probeLaw (fun r hr => Port.probeLaw_congr hp rfl rfl rfl) fun _ => ?_
    exact Port.probeLaw_congr (Port.probeLaw_goNeutral _) rfl rfl rfl

/-- HENn's level recorded where it takes nothing from the lines (R5). -/
theorem Run.modHen (h : Run s t) (b : Bool) (hn : LinesLaw t → b = true →
      (∀ c, (t.port p).presented = some c → c.chargeOnly = false)
        ∧ ∀ r, (t.port p).rePresent = some r → r.target.chargeOnly = false) :
    Run s (t.modPins p fun x => { x with hen := b }) := by
  refine h.port _ (Worked.hub (fun hl => ?_) (fun _ hp => Port.probeLaw_congr hp rfl rfl rfl) rfl rfl rfl rfl) fun _ => rfl
  obtain ⟨h1, h2, -, h4⟩ := hl.1 p
  exact ⟨h1, h2, hn hl, h4⟩

theorem Run.hennRising (h : Run s t) :
    Run s ((t.modPins p fun x => { x with hen := true }).running fun u => u.hubRises p) := by
  unfold State.running
  split
  · rename_i hr
    refine h.modHen true fun hl _ => ?_
    have hoff := (hl.1 p).1.trans (by rw [hl.2 hr p]; rfl : (t.port p).state.isOn = false)
    obtain ⟨h1, h2, -⟩ := (hl.1 p).2.1 hoff
    simp [h1, h2]
  · unfold State.hubRises
    dsimp only
    rw [State.port_modPins_same]
    split
    · rename_i ht
      have e : (t.modPins p fun x => { x with hen := true }).modPort p Port.hubTakesLines
          = t.modPort p fun q => ({ q with pins := { q.pins with hen := true } } : Port).hubTakesLines :=
        State.modPort_modPort _ _ _ _
      rw [e]
      have a := h.port (fun q => ({ q with pins := { q.pins with hen := true } } : Port).hubTakesLines)
        (Worked.hubTakesLines ht) fun _ => Port.bound_hubTakesLines _
      split
      · exact a.withdraw.afterRelease
      · exact a
    · rename_i ht
      have a : Run s (t.modPins p fun x => { x with hen := true }) :=
        h.modHen true fun hl _ => Port.hubTakes_eq_false (hl.1 p) (by simpa [Port.hubTakes] using ht)
      split
      · exact a.withdraw.afterRelease.recompute
      · exact a

theorem Run.hubFalls (h : Run s t) : Run s (t.hubFalls p) := by
  unfold State.hubFalls
  dsimp only
  split
  · exact h.recompute
  · exact h

/-! ### Sense events and timer expiries -/

theorem Run.attachEdge (h : Run s t) : Run s (State.attachEdge p t) := by
  unfold State.attachEdge
  split
  · exact h
  · split
    · rename_i hs
      exact h.openRemovable (by rw [hs]; rfl) fun hq => Port.seated_none hq (Or.inl hs)
    · rename_i hs
      exact h.returnInHold hs
    all_goals exact h

theorem Run.detachEdge (h : Run s t) : Run s (State.detachEdge p t) := by
  unfold State.detachEdge
  split
  · rename_i hs
    simp only [Bool.and_eq_true, decide_eq_true_eq] at hs
    exact h.detach hs.2
  · exact h

theorem Run.linkUp (h : Run s t) : Run s (State.linkUp p t) :=
  h.quiet _ (fun q => by split <;> exact ⟨rfl, rfl, rfl, rfl, rfl, rfl, rfl, rfl, rfl, rfl, rfl⟩)
    fun q => by split <;> rfl

theorem Run.linkDown (h : Run s t) : Run s (State.linkDown p t) :=
  h.quiet _ (fun q => by split <;> exact ⟨rfl, rfl, rfl, rfl, rfl, rfl, rfl, rfl, rfl, rfl, rfl⟩)
    fun q => by split <;> rfl

/-- A port unit whose probe detector moved, A staying presented (R6). -/
theorem Worked.detector {q' : Port} (hpr : (s.port p).probeLaw → q'.probeLaw) (hs : q'.state = (s.port p).state)
    (hf : q'.fixed = (s.port p).fixed) (hp : q'.policy = (s.port p).policy)
    (hx : q'.session.isSome = (s.port p).session.isSome) (hsw : q'.switchOn = (s.port p).switchOn)
    (hpres : q'.presented = (s.port p).presented) (hre : q'.rePresent = (s.port p).rePresent)
    (hov : q'.overcurrent = (s.port p).overcurrent) (hh : q'.pins = (s.port p).pins) : Worked s p q' :=
  Worked.hub (fun hl => Port.linesLaw_congr (hl.1 p) hsw hs hpres hre hov (by rw [hh])) (fun _ => hpr) hs hf hp hx

theorem Port.probeLaw_probeEnters {q : Port} (h : q.probeLaw) : q.probeEnters.probeLaw := by
  unfold Port.probeEnters
  split
  · rename_i hd
    simpa [Port.probeLaw, hd] using h.1
  · exact h

theorem Port.probeLaw_probeLeaves {q : Port} (h : q.probeLaw) : q.probeLeaves.probeLaw := by
  obtain ⟨h1, h2⟩ := h
  unfold Port.probeLeaves
  split <;> rename_i hd
  · simpa [Port.probeLaw, hd] using h1
  · simp only [hd] at h1 h2
    simpa [Port.probeLaw] using And.intro h1 h2
  · exact ⟨h1, h2⟩
  · exact ⟨h1, h2⟩

theorem Run.probeEnters (h : Run s t) : Run s (t.modPort p Port.probeEnters) := by
  refine h.port _ (Worked.detector Port.probeLaw_probeEnters ?_ ?_ ?_ ?_ ?_ ?_ ?_ ?_ ?_) fun _ => ?_ <;>
    unfold Port.probeEnters <;> split <;> rfl

theorem Run.probeLeaves (h : Run s t) : Run s (t.modPort p Port.probeLeaves) := by
  refine h.port _ (Worked.detector Port.probeLaw_probeLeaves ?_ ?_ ?_ ?_ ?_ ?_ ?_ ?_ ?_) fun _ => ?_ <;>
    unfold Port.probeLeaves <;> split <;> rfl

theorem Run.reading (h : Run s t) (mA : Nat) : Run s (State.reading p mA t) := by
  have a : Run s (t.modPort p fun q => q.takeReading mA) :=
    h.quiet _ (fun q => ⟨rfl, rfl, rfl, rfl, rfl, rfl, rfl, rfl, rfl, rfl, Option.isSome_map⟩)
      fun q => Port.bound_map _ fun x => by split <;> rfl
  unfold State.reading
  dsimp only
  split
  · rename_i hc
    have hs : ((t.modPort p fun q => q.takeReading mA).port p).state = (t.port p).state := by
      rw [State.port_modPort_same]
      rfl
    refine a.compareReading mA ?_ fun hl => ?_
    · rw [hs]
      rintro e
      rw [e] at hc
      cases hc
    · rw [(hl.1 p).1, hs]
      cases hst : (t.port p).state <;> simp [hst, PortState.compared] at hc <;> rfl
  · exact a

/-- An expiry that stops a timer no law reads, and its effect. -/
theorem Run.expire (h : Run s t) (left : Option Nat) (stop : Timers → Timers) (f : State → State)
    (hs : ∀ x, (stop x).probe = x.probe) (hf : ∀ u, Run s u → Run s (f u)) : Run s (t.expire p left stop f) := by
  unfold State.expire
  split
  · exact h
  · exact hf _ (h.modTimers stop hs)

theorem Run.probeTimer (h : Run s t) : Run s (t.expire p (t.timers p).probe (fun x => { x with probe := none })
    fun u => u.modPort p Port.probeHeld) := by
  unfold State.expire
  split
  · exact h
  · rename_i n hn
    dsimp only
    rw [State.modTimers, State.modPort_modPort]
    have hb : ∀ q : Port, q.probeHeld.bound = q.bound := fun q => by
      unfold Port.probeHeld
      split
      · exact q.bound_map fun _ => rfl
      · rfl
    refine h.port _ (Worked.detector (fun hp => ?_) ?_ ?_ ?_ ?_ ?_ ?_ ?_ ?_ ?_) fun _ => hb _
    · have hd := hp.2.mp (by rw [show (t.port p).timers.probe = some n from hn]; rfl)
      simpa [Port.probeHeld, hd, Port.probeLaw] using hp.1
    all_goals
      unfold Port.probeHeld
      split <;> simp

/-! ### Steps -/

/-- A host command is carried out when the part takes it (R186, R193). -/
theorem exec_host {c : Instr} (hc : (encodeCommand c).isSome = true) (s : State) :
    exec c s = .next (s.taking fun u => u.carryOut c) := by
  cases c <;> first | rfl | cases hc

theorem exec_host_run {c : Instr} (hc : (encodeCommand c).isSome = true) (h : exec c s = .next t) : Run s t := by
  rw [exec_host hc] at h
  cases h
  exact Run.refl.taking _ fun hr => Run.refl.carryOut hr c

/-- Every command is a run. -/
theorem exec_run (i : Instr) (s t : State) (h : exec i s = .next t) : Run s t := by
  have r : Run s s := .refl
  cases i with
  | failedFrame bytes =>
    cases h
    exact r.taking _ fun hr => r.takeFrame hr bytes
  | powerOnReset addr =>
    cases h
    exact r.resetAll _
  | pinReset =>
    cases h
    exact r.resetKeeping _
  | pinResetRelease addr =>
    cases h
    exact r.host _ fun e => (by cases e)
  | attnRising p =>
    cases h
    exact (r.modPins _ fun _ => by exact rfl).running _ (Run.attachEdge (r.modPins _ fun _ => by exact rfl))
  | attnFalling p =>
    cases h
    exact (r.modPins _ fun _ => by exact rfl).running _ (Run.detachEdge (r.modPins _ fun _ => by exact rfl))
  | hennRising p =>
    cases h
    exact r.hennRising
  | hennFalling p =>
    cases h
    have a : Run s (s.modPins p fun x => { x with hen := false }) := r.modHen false fun _ e => (by cases e)
    exact a.running _ a.hubFalls
  | loknRising p =>
    cases h
    exact (r.modPins _ fun _ => by exact rfl).running _ (Run.linkUp (r.modPins _ fun _ => by exact rfl))
  | loknFalling p =>
    cases h
    exact (r.modPins _ fun _ => by exact rfl).running _ (Run.linkDown (r.modPins _ fun _ => by exact rfl))
  | probeBandEntered p =>
    cases h
    exact (r.modPins _ fun _ => by exact rfl).running _ (Run.probeEnters (r.modPins _ fun _ => by exact rfl))
  | probeBandLeft p =>
    cases h
    exact (r.modPins _ fun _ => by exact rfl).running _ (Run.probeLeaves (r.modPins _ fun _ => by exact rfl))
  | probeTimerExpiry p =>
    cases h
    exact r.probeTimer
  | currentReading p mA =>
    cases h
    exact r.running _ (r.reading _)
  | rePresentTimerExpiry p =>
    change execRePresentTimerExpiry p s = _ at h
    unfold execRePresentTimerExpiry at h
    split at h
    · cases h
      exact r
    · rename_i x hx
      cases h
      exact r.rePresentEnd x hx
  | settleExpiry p =>
    cases h
    refine r.expire _ _ _ (fun _ => rfl) fun u hu => ?_
    split
    · exact hu.settleEnd
    · exact hu
  | identityWaitExpiry p =>
    cases h
    refine r.expire _ _ _ (fun _ => rfl) fun u hu => ?_
    split
    · exact hu.beginTrials
    · exact hu
  | holdExpiry p =>
    cases h
    refine r.expire _ _ _ (fun _ => rfl) fun u hu => ?_
    split
    · rename_i hs
      exact hu.holdEnd hs
    · exact hu
  | powerGoodExpiry p =>
    cases h
    refine r.expire _ _ _ (fun _ => rfl) fun u hu => ?_
    split
    · rename_i hs
      exact hu.powerGoodEnd hs
    · exact hu
  | evaluationWindowExpiry p =>
    cases h
    refine r.expire _ _ _ (fun _ => rfl) fun u hu => ?_
    unfold State.windowEnd
    split
    · exact hu
    · split
      · exact hu.judge _ _
      · exact hu
  | budgetWaitExpiry p =>
    cases h
    unfold State.waitEnd
    split
    · exact r.withdraw.afterRelease.nextStep
    · exact r
  | coolDownExpiry p =>
    cases h
    refine r.expire _ _ _ (fun _ => rfl) fun u hu => ?_
    unfold State.coolDownEnd
    split
    · rename_i hs
      split
      · exact hu.enterPowering (Or.inl hs)
      · exact hu.overcurrentQuarantine hs
    · exact hu
  | toggleOffExpiry p =>
    cases h
    refine r.expire _ _ _ (fun _ => rfl) fun u hu => ?_
    split
    · rename_i hs
      exact hu.enterPowering (Or.inr hs)
    · exact hu
  | linkTimerExpiry p =>
    cases h
    refine r.expire _ _ _ (fun _ => rfl) fun u hu => ?_
    split
    · rename_i hs
      simp only [Bool.and_eq_true, decide_eq_true_eq] at hs
      unfold State.linkEnd
      split
      · exact hu.enterRecovery hs.2 hs.1
      · exact hu.linkQuarantine (by simp [hs.2])
    · exact hu
  | addressByteReceived b =>
    cases h
    refine r.taking _ fun hr => (r.takeFrame hr _).host _ fun e => ?_
    rwa [HostPort.inReset_addressed] at e
  | dataByteReceived b =>
    cases h
    refine r.taking _ fun hr => r.host _ fun e => ?_
    rwa [HostPort.inReset_dataByte] at e
  | _ => exact exec_host_run rfl h

/-- Every step is a run: the command at the front of the queue, an expiry, or the passing of 5 ms. -/
theorem step_run (h : step s = .next t) : Run s t := by
  unfold step at h
  split at h
  · exact (Run.refl.queue _).trans (exec_run _ _ _ h)
  · unfold State.runClock at h
    split at h
    · cases h
      exact Run.refl.tick
    · exact exec_run _ _ _ h
    · split at h
      · exact (Run.refl.choice _).trans (exec_run _ _ _ h)
      · cases h
        exact Run.refl.choice _

/-! ### The laws -/

/-- Settles O53: every update of a run keeps the line law and the probe law of the port it works on. -/
theorem linesLawIsKept : Obligations.LinesLawIsKept := by
  unfold Obligations.LinesLawIsKept
  exact fun _ hl hp _ h => (step_run h).linesLaw hl hp

/-- Settles O54: each notice is raised in a group of its class, and ALERT# follows each change of the unit. -/
theorem noticeLawIsKept : Obligations.NoticeLawIsKept := by
  unfold Obligations.NoticeLawIsKept
  exact fun _ hn _ h => (step_run h).noticeLaw hn

/-- Settles O55: every change of the Profile Memory in a run keeps its law. -/
theorem memoryLawIsKept : Obligations.MemoryLawIsKept := by
  unfold Obligations.MemoryLawIsKept
  exact fun _ hm _ h => (step_run h).memoryLaw hm

/-- Settles O59: bindings and user counts move together, and a session opens only where none stands. -/
theorem usersLawIsKept : Obligations.UsersLawIsKept := by
  unfold Obligations.UsersLawIsKept
  exact fun _ hs _ hu _ h => ((step_run h).usersLaw hs.seated hu).2

/-- Settles O60: records and settings are written only after their checks, and the enabled field moves with DISABLED. -/
theorem policyLawIsKept : Obligations.PolicyLawIsKept := by
  unfold Obligations.PolicyLawIsKept
  exact fun _ hp _ h => (step_run h).policyLaw hp

end Sys2Proof.Machine
end

section
/-! SUPPORT. The laws of sessions, queue, cover, need and exactness spoken of one port: its unit, its grant, its entries in
the queue. `full` says whether the laws of the grants are carried with those of the sessions and the queue. -/

namespace Sys2Proof.Machine

/-! ### The entries of one port -/

/-- The queue entries of a port (R126). -/
def State.waits (s : State) (p : PortId) : List QueueEntry := s.budget.queue.filter (·.port = p)

theorem State.mem_waits {s : State} {p : PortId} {e : QueueEntry} : e ∈ s.waits p ↔ e ∈ s.budget.queue ∧ e.port = p := by
  simp [State.waits]

theorem State.queued_iff_waits (s : State) (p : PortId) : s.queued p = true ↔ s.waits p ≠ [] := by
  simp [State.queued, State.waits, List.filter_eq_nil_iff]

theorem State.queued_eq_false (s : State) (p : PortId) : s.queued p = false ↔ s.waits p = [] := by
  rw [← Bool.not_eq_true, State.queued_iff_waits, not_not]

theorem State.waits_withdraw (s : State) (p r : PortId) : (s.withdraw p).waits r = if r = p then [] else s.waits r := by
  simp only [State.waits, State.withdraw, State.queue_setQueue, List.filter_filter]
  split
  · rename_i h
    subst h
    simp
  · rename_i h
    refine List.filter_congr fun e _ => ?_
    by_cases he : e.port = r <;> simp [he, h]

@[simp] theorem State.waits_withdraw_same (s : State) (p : PortId) : (s.withdraw p).waits p = [] := by
  simp [State.waits_withdraw]

theorem State.waits_withdraw_ne (s : State) {p r : PortId} (h : r ≠ p) : (s.withdraw p).waits r = s.waits r := by
  simp [State.waits_withdraw, h]

/-- The phase of a port's session. -/
def Port.phase (q : Port) : Option Phase := q.session.bind (·.phase)

/-- R126 spoken of each port. -/
theorem queueLaw_iff (s : State) :
    QueueLaw s ↔ ∀ p, (s.waits p).length ≤ 1 ∧ (s.waits p ≠ [] ↔ (s.port p).phase = some .waitingBudget) := by
  unfold QueueLaw
  rw [List.nodup_iff_count_le_one, forall_and]
  refine and_congr (forall_congr' fun p => ?_) (forall_congr' fun p => ?_)
  · rw [List.count_eq_countP, List.countP_map, List.countP_eq_length_filter]
    rw [show s.waits p = s.budget.queue.filter ((fun x => x == p) ∘ (·.port)) from
      List.filter_congr fun e _ => by by_cases he : e.port = p <;> simp [he]]
  · rw [State.queued_iff_waits]
    rfl

/-! ### The laws of one port -/

/-- What the grants ask of one port: its lines follow its switch, its grant covers what it offers, is exactly that at rest, and
is the base at least (R16, R119, R124). -/
structure Port.Granted (q : Port) (g : Nat) : Prop where
  on : q.state.isOn = true → q.switchOn = true
  off : q.state.isOn = false → q.presented = none ∧ q.rePresent = none
  cover : q.coverLaw g
  exact : q.exactLaw g
  base : q.state ≠ .disabled → 500 ≤ g

/-- A port with its grant and its queue entries, between two steps. -/
structure Port.Ok (full : Prop) (q : Port) (g : Nat) (w : List QueueEntry) : Prop where
  session : q.sessionLaw
  single : w.length ≤ 1
  waits : w ≠ [] ↔ q.phase = some .waitingBudget
  granted : full → q.Granted g
  need : full → ∀ e, e ∈ w → g < e.sig.offered

/-- A port in OCCUPIED with a session in hand: in a phase, with no queue entry, whatever its phase. -/
structure Port.Free (full : Prop) (q : Port) (g : Nat) (w : List QueueEntry) : Prop where
  state : q.state = .occupied
  waits : w = []
  session : ∃ x, q.session = some x ∧ x.phase.isSome = true ∧ x.held = none
  granted : full → q.Granted g

/-- Every port between two steps. -/
def Sound (full : Prop) (s : State) : Prop := ∀ r, (s.port r).Ok full (s.grant r) (s.waits r)

/-- One port in hand, the others as between two steps. -/
structure Hand (full : Prop) (p : PortId) (s : State) : Prop where
  others : ∀ r, r ≠ p → (s.port r).Ok full (s.grant r) (s.waits r)
  free : (s.port p).Free full (s.grant p) (s.waits p)

theorem linesLaw_switch {q : Port} (h : q.linesLaw) :
    (q.state.isOn = true → q.switchOn = true) ∧ (q.state.isOn = false → q.presented = none ∧ q.rePresent = none) := by
  obtain ⟨h1, h2, -⟩ := h
  refine ⟨fun e => h1.trans e, fun e => ?_⟩
  obtain ⟨ha, hb, -⟩ := h2 (h1.trans e)
  exact ⟨ha, hb⟩

theorem sound_false_iff (s : State) : Sound False s ↔ SessionLaw s ∧ QueueLaw s := by
  rw [queueLaw_iff]
  refine ⟨fun h => ⟨fun p => (h p).session, fun p => ⟨(h p).single, (h p).waits⟩⟩, fun ⟨hs, hq⟩ p => ?_⟩
  exact ⟨hs p, (hq p).1, (hq p).2, False.elim, False.elim⟩

theorem sound_true {s : State} (hs : SessionLaw s) (hq : QueueLaw s) (hg : GrantLaw s) (hl : LinesLaw s) (hc : CoverLaw s)
    (hn : NeedLaw s) (he : ExactLaw s) : Sound True s := by
  intro p
  obtain ⟨h1, h2⟩ := (queueLaw_iff s).mp hq p
  obtain ⟨hon, hoff⟩ := linesLaw_switch (hl.1 p)
  refine ⟨hs p, h1, h2, fun _ => ⟨hon, hoff, hc p, he p, fun hd => (hg.2.2.2.1 p hd).1⟩, fun _ e hm => ?_⟩
  obtain ⟨hm', rfl⟩ := State.mem_waits.mp hm
  exact hn e hm'

theorem Sound.laws {s : State} (h : Sound True s) : CoverLaw s ∧ NeedLaw s ∧ ExactLaw s :=
  ⟨fun p => ((h p).granted trivial).cover, fun e he => (h e.port).need trivial e (State.mem_waits.mpr ⟨he, rfl⟩),
    fun p => ((h p).granted trivial).exact⟩

/-! ### Changes that the laws do not see -/

/-- Two units alike in all that the laws read. -/
structure Port.Alike (q q' : Port) : Prop where
  state : q'.state = q.state
  fixed : q'.fixed = q.fixed
  switchOn : q'.switchOn = q.switchOn
  presented : q'.presented = q.presented
  rePresent : q'.rePresent.map (fun r => (r.target, r.starting)) = q.rePresent.map (fun r => (r.target, r.starting))
  session : q'.session.map (fun x => (x.phase, x.held, x.presented)) = q.session.map (fun x => (x.phase, x.held, x.presented))

/-- What is alike in two sessions that the laws do not tell apart. -/
theorem Port.Alike.session_some {q q' : Port} (h : q.Alike q') {y : Session} (hy : q'.session = some y) :
    ∃ x, q.session = some x ∧ y.phase = x.phase ∧ y.held = x.held ∧ y.presented = x.presented := by
  have e := h.session
  rw [hy] at e
  obtain ⟨x, hx, hxy⟩ := Option.map_eq_some_iff.mp e.symm
  simp only [Prod.mk.injEq] at hxy
  obtain ⟨h1, h2, h3⟩ := hxy
  exact ⟨x, hx, h1.symm, h2.symm, h3.symm⟩

theorem Port.Alike.session_none {q q' : Port} (h : q.Alike q') (hy : q'.session = none) : q.session = none := by
  have e := h.session
  rw [hy] at e
  exact Option.map_eq_none_iff.mp e.symm

theorem Port.Alike.rePresent_some {q q' : Port} (h : q.Alike q') {r' : RePresent} (hr : q'.rePresent = some r') :
    ∃ r, q.rePresent = some r ∧ r'.target = r.target ∧ r'.starting = r.starting := by
  have e := h.rePresent
  rw [hr] at e
  obtain ⟨r, hr, h'⟩ := Option.map_eq_some_iff.mp e.symm
  simp only [Prod.mk.injEq] at h'
  exact ⟨r, hr, h'.1.symm, h'.2.symm⟩

theorem Port.Alike.rePresent_none {q q' : Port} (h : q.Alike q') : q'.rePresent = none ↔ q.rePresent = none := by
  rw [← Option.map_eq_none_iff, h.rePresent, Option.map_eq_none_iff]

theorem Port.Alike.phase {q q' : Port} (h : q.Alike q') : q'.phase = q.phase := by
  unfold Port.phase
  cases hy : q'.session with
  | none => rw [h.session_none hy]
  | some y =>
    obtain ⟨x, hx, hp, -⟩ := h.session_some hy
    simp [hx, hp]

theorem Port.Alike.sessionLaw {q q' : Port} (h : q.Alike q') (hq : q.sessionLaw) : q'.sessionLaw := by
  unfold Port.sessionLaw at hq ⊢
  rw [h.state, h.fixed]
  cases hy : q'.session with
  | none =>
    rw [h.session_none hy] at hq
    exact hq
  | some y =>
    obtain ⟨x, hx, hp, hh, -⟩ := h.session_some hy
    rw [hx] at hq
    cases hs : q.state <;> simp_all

theorem Port.Alike.granted {q q' : Port} (h : q.Alike q') {g : Nat} (hq : q.Granted g) : q'.Granted g := by
  obtain ⟨h1, h2, ⟨c1, c2, c3, c4⟩, ⟨e1, e2⟩, h5⟩ := hq
  refine ⟨?_, ?_, ⟨?_, fun r' hr' => ?_, ?_, fun y hy hsus => ?_⟩, ⟨fun c hc hr => ?_, fun hn => ?_⟩, ?_⟩
  · rw [h.state, h.switchOn]
    exact h1
  · rw [h.state, h.presented, h.rePresent_none]
    exact h2
  · rw [h.presented]
    exact c1
  · obtain ⟨r, hr, ht, hst⟩ := h.rePresent_some hr'
    rw [ht, hst]
    exact c2 r hr
  · rw [h.state, h.presented, h.rePresent_none]
    exact c3
  · obtain ⟨x, hx, hp, hh, hpr⟩ := h.session_some hy
    rw [hpr]
    refine c4 x hx ?_
    unfold Session.suspended at hsus ⊢
    rwa [hp, hh] at hsus
  · exact e1 c (h.presented ▸ hc) (h.rePresent_none.mp hr)
  · rw [h.state]
    exact e2 (h.session_none hn)
  · rw [h.state]
    exact h5

variable {full : Prop} {q q' : Port} {g : Nat} {w : List QueueEntry} {s t : State} {p : PortId}

theorem Port.Alike.ok (h : q.Alike q') (hq : q.Ok full g w) : q'.Ok full g w :=
  ⟨h.sessionLaw hq.session, hq.single, h.phase ▸ hq.waits, fun hf => h.granted (hq.granted hf), hq.need⟩

/-- The session in hand, with what the law of a suspended session asks of nothing. -/
theorem Port.Free.ok (h : q.Free full g w) (hp : q.phase ≠ some .waitingBudget) : q.Ok full g w := by
  obtain ⟨hs, hw, ⟨x, hx, h1, h2⟩, hg⟩ := h
  refine ⟨?_, by simp [hw], by simp [hw, hp], hg, fun _ e he => ?_⟩
  · unfold Port.sessionLaw
    rw [hs, hx]
    exact ⟨h1, h2⟩
  · rw [hw] at he
    cases he

theorem Port.Free.alike (h : q.Free full g w) (ha : q.Alike q') : q'.Free full g w := by
  obtain ⟨hs, hw, ⟨x, hx, h1, h2⟩, hg⟩ := h
  refine ⟨ha.state.trans hs, hw, ?_, fun hf => ha.granted (hg hf)⟩
  cases hy : q'.session with
  | none => rw [ha.session_none hy] at hx; cases hx
  | some y =>
    obtain ⟨x', hx', hp, hh, -⟩ := ha.session_some hy
    rw [hx] at hx'
    cases hx'
    exact ⟨y, rfl, hp ▸ h1, hh ▸ h2⟩

/-- In OCCUPIED a port between two steps can be taken in hand once its queue entry is withdrawn. -/
theorem Port.Ok.free (h : q.Ok full g w) (hs : q.state = .occupied) : q.Free full g [] := by
  have hl := h.session
  unfold Port.sessionLaw at hl
  rw [hs] at hl
  cases hx : q.session with
  | none => simp [hx] at hl
  | some x =>
    rw [hx] at hl
    exact ⟨hs, rfl, ⟨x, hx, hl.1, hl.2⟩, h.granted⟩

/-- A session in a phase stands in OCCUPIED (R22). -/
theorem Port.sessionLaw_occupied (h : q.sessionLaw) {ph : Phase} (hp : q.phase = some ph) : q.state = .occupied := by
  obtain ⟨x, hx, hph⟩ := Option.bind_eq_some_iff.mp hp
  unfold Port.sessionLaw at h
  rw [hx] at h
  cases hs : q.state <;> simp_all

/-! ### Lines at rest -/

/-- What the grants ask of lines that are on, whatever the session does. -/
structure Port.Lit (q : Port) (g : Nat) : Prop where
  on : q.switchOn = true
  shown : ∀ c, q.presented = some c → c.offered ≤ g
  flown : ∀ r, q.rePresent = some r → r.target.offered ≤ g ∧ ∀ c, r.starting = some c → c.offered ≤ g
  exact : ∀ c, q.presented = some c → q.rePresent = none → c.offered = g
  base : 500 ≤ g

theorem Port.Granted.lit (h : q.Granted g) (hon : q.state.isOn = true) : q.Lit g :=
  ⟨h.on hon, h.cover.1, h.cover.2.1, h.exact.1, h.base (PortState.not_disabled hon)⟩

/-- The states in which lines rest or move with a session in a phase, held or absent. -/
def PortState.lit (st : PortState) : Prop := st = .occupied ∨ st = .hold ∨ st = .idle

theorem PortState.isOn_of_lit {st : PortState} (h : st.lit) : st.isOn = true := by
  rcases h with e | e | e <;> rw [e] <;> rfl

theorem Port.Lit.granted (h : q.Lit g) (hst : q.state.lit) (hs : ∀ x, q.session = some x → x.suspended = false) :
    q.Granted g := by
  refine ⟨fun _ => h.on, fun e => ?_, ⟨h.shown, h.flown, fun e => ?_, fun x hx e => ?_⟩, ⟨h.exact, fun _ e => ?_⟩,
    fun _ => h.base⟩
  · rw [PortState.isOn_of_lit hst] at e
    cases e
  · rcases hst with e' | e' | e' <;> simp [e'] at e
  · rw [hs x hx] at e
    cases e
  · rcases hst with e' | e' | e' <;> simp [e'] at e

theorem Port.Lit.congr (h : q.Lit g) (hs : q'.switchOn = q.switchOn) (hp : q'.presented = q.presented)
    (hr : q'.rePresent = q.rePresent) : q'.Lit g := by
  obtain ⟨h1, h2, h3, h4, h5⟩ := h
  refine ⟨hs.trans h1, ?_, ?_, ?_, h5⟩
  · rwa [hp]
  · rwa [hr]
  · rwa [hp, hr]

theorem Session.not_suspended {x : Session} (h : x.phase.isSome = true ∨ x.held.isSome = true) : x.suspended = false := by
  unfold Session.suspended
  rcases h with e | e
  · cases hp : x.phase <;> simp_all
  · cases hp : x.held <;> simp_all

/-! ### Requests for a re-present -/

/-- A request on a port that is on puts its target in flight; what the lines showed, or the starting letter before, is its
starting letter (R10, R11). -/
theorem Port.requestRePresent_on (hon : q.switchOn = true) (target : Sig) (who : Requester) :
    ∃ r, (q.requestRePresent target who).rePresent = some r ∧ r.target = q.turned target ∧ r.requester = who
      ∧ (∀ c, r.starting = some c → q.presented = some c ∨ ∃ r0, q.rePresent = some r0 ∧ r0.starting = some c)
      ∧ (∀ c, (q.requestRePresent target who).presented = some c → q.presented = some c)
      ∧ (q.requestRePresent target who).switchOn = true := by
  unfold Port.requestRePresent
  rw [if_pos hon]
  cases hr : q.rePresent with
  | some r => exact ⟨_, rfl, rfl, rfl, fun c hc => Or.inr ⟨r, rfl, hc⟩, fun c hc => hc, hon⟩
  | none => exact ⟨_, rfl, rfl, rfl, fun c hc => Or.inl hc, fun c hc => (by cases hc), hon⟩

/-- P offers the least. -/
theorem Sig.offered_P_le (c : Sig) : Sig.offered .P ≤ c.offered := by
  cases c <;> decide

theorem Port.turned_offered (q : Port) (target : Sig) : (q.turned target).offered ≤ target.offered := by
  unfold Port.turned
  split
  · exact Sig.offered_P_le target
  · exact Nat.le_refl _

/-- Lines that a request within the grant moves (R10, R11). -/
theorem Port.Lit.request {g' : Nat} {target : Sig} {who : Requester} (h : q.Lit g)
    (ht : (q.turned target).offered ≤ g') (hg : g ≤ g')
    (hp : q'.presented = (q.requestRePresent target who).presented)
    (hr : q'.rePresent = (q.requestRePresent target who).rePresent)
    (hsw : q'.switchOn = (q.requestRePresent target who).switchOn) : q'.Lit g' := by
  obtain ⟨r, hrr, htar, -, hstart, hpres, hsw'⟩ := Port.requestRePresent_on h.on target who
  refine ⟨hsw.trans hsw', fun c hc => (h.shown c (hpres c (hp ▸ hc))).trans hg, fun r' hr' => ?_, fun c _ hn => ?_,
    h.base.trans hg⟩
  · rw [hr, hrr] at hr'
    cases hr'
    refine ⟨htar ▸ ht, fun c hc => ?_⟩
    rcases hstart c hc with e | ⟨r0, h0, e⟩
    · exact (h.shown c e).trans hg
    · exact ((h.flown r0 h0).2 c e).trans hg
  · rw [hr, hrr] at hn
    cases hn

/-- A unit whose lines are as a request within the grant leaves them, its session in a phase or held or gone. -/
theorem Port.Granted.request {g' : Nat} {target : Sig} {who : Requester} (h : q.Granted g) (hon : q.state.isOn = true)
    (ht : (q.turned target).offered ≤ g') (hg : g ≤ g')
    (hp : q'.presented = (q.requestRePresent target who).presented)
    (hr : q'.rePresent = (q.requestRePresent target who).rePresent)
    (hsw : q'.switchOn = (q.requestRePresent target who).switchOn)
    (hst : q'.state.lit) (hs : ∀ x, q'.session = some x → x.suspended = false) : q'.Granted g' :=
  ((h.lit hon).request ht hg hp hr hsw).granted hst hs

/-- The session's own re-present: the request, and the phase REPRESENTING (R26, R52). -/
theorem Port.Free.represents {g' : Nat} {target : Sig} {who : Requester} (h : q.Free full g w)
    (ht : full → (q.turned target).offered ≤ g') (hg : full → g ≤ g') :
    (q.requestRePresent target who).sessionRepresents.Ok full g' w := by
  obtain ⟨hs, hw, ⟨x, hx, h1, h2⟩, hgr⟩ := h
  have hk := q.requestRePresent_keeps target who
  have hx' : ∃ y, (q.requestRePresent target who).session = some y ∧ y.held = none := by
    unfold Port.requestRePresent
    split
    · split
      · exact ⟨x, hx, h2⟩
      · refine ⟨x.follow none, ?_, ?_⟩
        · simp [Port.startRePresent, Port.goNeutral, hx]
        · unfold Session.follow
          split <;> exact h2
    · exact ⟨x, hx, h2⟩
  obtain ⟨y, hy, hh⟩ := hx'
  have hsess : (q.requestRePresent target who).sessionRepresents.session
      = some { y with phase := some .representing, target := (q.requestRePresent target who).rePresent.map (·.target) } := by
    simp [Port.sessionRepresents, hy]
  have hstate : (q.requestRePresent target who).sessionRepresents.state = .occupied := hk.1.trans hs
  refine (Port.Free.mk hstate hw ⟨_, hsess, rfl, hh⟩ fun hf => ?_).ok ?_
  · refine (hgr hf).request (by rw [hs]; rfl) (ht hf) (hg hf) rfl rfl rfl (Or.inl hstate) fun z hz => ?_
    rw [hsess] at hz
    cases hz
    rfl
  · simp [Port.phase, hsess]

/-! ### The states of all ports -/

/-- From the port worked on to all ports. -/
theorem Sound.of_others (ho : ∀ r, r ≠ p → (t.port r).Ok full (t.grant r) (t.waits r))
    (hp : (t.port p).Ok full (t.grant p) (t.waits p)) : Sound full t := by
  intro r
  by_cases e : r = p
  · exact e ▸ hp
  · exact ho r e

/-- Every port but one, with its grant and its queue entries, is as it was. -/
def Elsewhere (p : PortId) (s t : State) : Prop :=
  ∀ r, r ≠ p → t.port r = s.port r ∧ t.grant r = s.grant r ∧ t.waits r = s.waits r

theorem Elsewhere.ok (h : Elsewhere p s t) (ho : ∀ r, r ≠ p → (s.port r).Ok full (s.grant r) (s.waits r)) (r : PortId)
    (hr : r ≠ p) : (t.port r).Ok full (t.grant r) (t.waits r) := by
  obtain ⟨h1, h2, h3⟩ := h r hr
  rw [h1, h2, h3]
  exact ho r hr

theorem Elsewhere.modPort (s : State) (p : PortId) (f : Port → Port) : Elsewhere p s (s.modPort p f) :=
  fun _ hr => ⟨State.port_modPort_ne _ _ _ _ hr, rfl, rfl⟩

theorem Elsewhere.setGrant (s : State) (p : PortId) (mA : Nat) : Elsewhere p s (s.setGrant p mA) :=
  fun _ hr => ⟨rfl, State.grant_setGrant_ne _ _ _ _ hr, rfl⟩

theorem Elsewhere.fallGrant (s : State) (p : PortId) (mA : Nat) : Elsewhere p s (s.fallGrant p mA) :=
  fun r hr => ⟨State.port_fallGrant _ _ _ _, State.grant_fallGrant_ne _ _ _ _ hr, by
    simp only [State.waits, State.queue_fallGrant]⟩

theorem Elsewhere.withdraw (s : State) (p : PortId) : Elsewhere p s (s.withdraw p) :=
  fun _ hr => ⟨rfl, rfl, State.waits_withdraw_ne _ hr⟩

theorem Elsewhere.trans {u : State} (h : Elsewhere p s t) (g : Elsewhere p t u) : Elsewhere p s u := fun r hr => by
  obtain ⟨h1, h2, h3⟩ := h r hr
  obtain ⟨g1, g2, g3⟩ := g r hr
  exact ⟨g1.trans h1, g2.trans h2, g3.trans h3⟩

@[simp] theorem State.waits_modPort (s : State) (p r : PortId) (f : Port → Port) : (s.modPort p f).waits r = s.waits r := rfl
@[simp] theorem State.waits_modSession (s : State) (p r : PortId) (f : Session → Session) :
    (s.modSession p f).waits r = s.waits r := rfl
@[simp] theorem State.waits_setGrant (s : State) (p r : PortId) (mA : Nat) : (s.setGrant p mA).waits r = s.waits r := rfl
@[simp] theorem State.waits_raisePort (s : State) (p r : PortId) (k : Kind) : (s.raisePort p k).waits r = s.waits r := rfl
@[simp] theorem State.waits_raiseDevice (s : State) (r : PortId) (k : Kind) : (s.raiseDevice k).waits r = s.waits r := rfl
@[simp] theorem State.waits_fallGrant (s : State) (p r : PortId) (mA : Nat) : (s.fallGrant p mA).waits r = s.waits r := by
  simp only [State.waits, State.queue_fallGrant]

/-- A port unit changed where the laws see nothing. -/
theorem Sound.alike (h : Sound full s) (f : Port → Port) (hf : (s.port p).Alike (f (s.port p))) : Sound full (s.modPort p f) :=
  Sound.of_others ((Elsewhere.modPort s p f).ok fun r _ => h r) (by
    rw [State.port_modPort_same]
    exact hf.ok (h p))

theorem Hand.alike (h : Hand full p s) (f : Port → Port) (hf : (s.port p).Alike (f (s.port p))) : Hand full p (s.modPort p f) :=
  ⟨(Elsewhere.modPort s p f).ok h.others, by
    rw [State.port_modPort_same]
    exact h.free.alike hf⟩

/-- A change of the session's own items. -/
theorem Port.Alike.mapSession (q : Port) (f : Session → Session)
    (hf : ∀ x, (f x).phase = x.phase ∧ (f x).held = x.held ∧ (f x).presented = x.presented) :
    q.Alike { q with session := q.session.map f } := by
  refine ⟨rfl, rfl, rfl, rfl, rfl, ?_⟩
  rw [Option.map_map]
  congr 1
  funext x
  obtain ⟨h1, h2, h3⟩ := hf x
  simp [h1, h2, h3]

theorem Sound.modSession (h : Sound full s) (f : Session → Session)
    (hf : ∀ x, (f x).phase = x.phase ∧ (f x).held = x.held ∧ (f x).presented = x.presented) :
    Sound full (s.modSession p f) := h.alike _ (Port.Alike.mapSession _ f hf)

theorem Hand.modSession (h : Hand full p s) (f : Session → Session)
    (hf : ∀ x, (f x).phase = x.phase ∧ (f x).held = x.held ∧ (f x).presented = x.presented) :
    Hand full p (s.modSession p f) := h.alike _ (Port.Alike.mapSession _ f hf)

/-- What the laws read is the same: the port units, the grants and the queue. -/
theorem Sound.same (h : Sound full s) (hp : t.ports = s.ports) (hg : t.budget.grants = s.budget.grants)
    (hq : t.budget.queue = s.budget.queue) : Sound full t := by
  intro r
  have := h r
  unfold State.port State.grant State.waits at *
  rw [hp, hg, hq]
  exact this

theorem Hand.same (h : Hand full p s) (hp : t.ports = s.ports) (hg : t.budget.grants = s.budget.grants)
    (hq : t.budget.queue = s.budget.queue) : Hand full p t := by
  obtain ⟨h1, h2⟩ := h
  refine ⟨fun r hr => ?_, ?_⟩
  · have := h1 r hr
    unfold State.port State.grant State.waits at *
    rw [hp, hg, hq]
    exact this
  · unfold State.port State.grant State.waits at *
    rw [hp, hg, hq]
    exact h2

theorem Sound.raisePort (h : Sound full s) (k : Kind) : Sound full (s.raisePort p k) := h.same rfl rfl rfl
theorem Sound.raiseDevice (h : Sound full s) (k : Kind) : Sound full (s.raiseDevice k) := h.same rfl rfl rfl
theorem Hand.raisePort (h : Hand full p s) (k : Kind) : Hand full p (s.raisePort p k) := h.same rfl rfl rfl

/-- A port in OCCUPIED taken in hand, its queue entry withdrawn. -/
theorem Sound.hand (h : Sound full s) (hs : (s.port p).state = .occupied) : Hand full p (s.withdraw p) :=
  ⟨(Elsewhere.withdraw s p).ok fun r _ => h r, by
    rw [State.waits_withdraw_same]
    exact (h p).free hs⟩

theorem State.withdraw_of_waits (h : s.waits p = []) : s.withdraw p = s := by
  have e : s.budget.queue.filter (·.port ≠ p) = s.budget.queue := List.filter_eq_self.mpr fun e he => by
    have := List.filter_eq_nil_iff.mp h e he
    simpa using this
  unfold State.withdraw State.setQueue
  rw [e]

/-- A port in OCCUPIED that does not wait, taken in hand. -/
theorem Sound.hand_of_idle (h : Sound full s) (hs : (s.port p).state = .occupied)
    (hp : (s.port p).phase ≠ some .waitingBudget) : Hand full p s := by
  have hw : s.waits p = [] := not_not.mp fun e => hp ((h p).waits.mp e)
  exact State.withdraw_of_waits hw ▸ h.hand hs

/-- The same for a session known to be in a phase. -/
theorem Sound.hand_of_phase (h : Sound full s) {ph : Phase} (hp : (s.port p).phase = some ph) (hn : ph ≠ .waitingBudget) :
    Hand full p s :=
  h.hand_of_idle (Port.sessionLaw_occupied (h p).session hp) (by rw [hp]; simpa using hn)

theorem Hand.sound (h : Hand full p s) (hp : (s.port p).phase ≠ some .waitingBudget) : Sound full s :=
  Sound.of_others h.others (h.free.ok hp)

/-! ### Service of the queue -/

theorem State.waits_cons {e : QueueEntry} {rest : List QueueEntry} (hq : s.budget.queue = e :: rest) (r : PortId) :
    s.waits r = if e.port = r then e :: rest.filter (·.port = r) else rest.filter (·.port = r) := by
  unfold State.waits
  rw [hq, List.filter_cons]
  simp

theorem State.port_grantHead_same (s : State) (e : QueueEntry) (rest : List QueueEntry) :
    (s.grantHead e rest).port e.port = ((s.port e.port).requestRePresent e.sig .sequencer).sessionRepresents :=
  State.port_modPort_same _ _ _

theorem State.port_grantHead_ne (s : State) {e : QueueEntry} (rest : List QueueEntry) {r : PortId} (h : r ≠ e.port) :
    (s.grantHead e rest).port r = s.port r := State.port_modPort_ne _ _ _ _ h

theorem State.grant_grantHead (s : State) (e : QueueEntry) (rest : List QueueEntry) (r : PortId) :
    (s.grantHead e rest).grant r = if r = e.port then e.sig.offered else s.grant r := State.grant_setGrant _ _ _ _

theorem State.waits_grantHead (s : State) (e : QueueEntry) (rest : List QueueEntry) (r : PortId) :
    (s.grantHead e rest).waits r = rest.filter (·.port = r) := rfl

/-- A head granted leaves every other port as it is. -/
theorem Elsewhere.grantHead {e : QueueEntry} {rest : List QueueEntry} (hq : s.budget.queue = e :: rest) :
    Elsewhere e.port s (s.grantHead e rest) := fun r hr => by
  refine ⟨State.port_grantHead_ne s rest hr, ?_, ?_⟩
  · rw [State.grant_grantHead, if_neg hr]
  · rw [State.waits_grantHead, State.waits_cons hq, if_neg (Ne.symm hr)]

/-- A head granted: its port goes to REPRESENTING toward what it waited for (R129, R52). -/
theorem Port.Ok.grantHead {e : QueueEntry} {rest : List QueueEntry} (hq : s.budget.queue = e :: rest)
    (h : (s.port e.port).Ok full (s.grant e.port) (s.waits e.port)) :
    ((s.grantHead e rest).port e.port).Ok full ((s.grantHead e rest).grant e.port) ((s.grantHead e rest).waits e.port) := by
  have hw := State.waits_cons hq e.port
  rw [if_pos rfl] at hw
  have hph := h.waits.mp (by simp [hw])
  have hnil : rest.filter (·.port = e.port) = [] := by
    have := h.single
    rw [hw, List.length_cons] at this
    exact List.length_eq_zero_iff.mp (by omega)
  have hn : full → s.grant e.port ≤ e.sig.offered := fun hf => Nat.le_of_lt (h.need hf e (by simp [hw]))
  rw [State.port_grantHead_same, State.grant_grantHead, if_pos rfl, State.waits_grantHead, hnil]
  exact (h.free (Port.sessionLaw_occupied h.session hph)).represents (fun _ => Port.turned_offered _ _) hn

theorem Sound.keptByGrant : KeptByGrant (Sound full) := fun _ _ _ h hq _ =>
  Sound.of_others ((Elsewhere.grantHead hq).ok fun r _ => h r) (Port.Ok.grantHead hq (h _))

theorem Hand.keptByGrant : KeptByGrant (Hand full p) := fun s e rest h hq _ => by
  have hne : p ≠ e.port := fun hp => by
    have hw := h.free.waits
    rw [State.waits_cons hq, if_pos hp.symm] at hw
    cases hw
  have he := Elsewhere.grantHead hq
  refine ⟨fun r hr => ?_, ?_⟩
  · by_cases hre : r = e.port
    · exact hre ▸ Port.Ok.grantHead hq (h.others _ (Ne.symm hne))
    · obtain ⟨h1, h2, h3⟩ := he r hre
      rw [h1, h2, h3]
      exact h.others r hr
  · obtain ⟨h1, h2, h3⟩ := he p hne
    rw [h1, h2, h3]
    exact h.free

theorem Sound.serve (h : Sound full s) (n : Nat) : Sound full (State.serve n s) := State.serve_keeps Sound.keptByGrant n s h

theorem Sound.afterRelease (h : Sound full s) : Sound full s.afterRelease :=
  State.afterRelease_keeps Sound.keptByGrant (fun _ _ h _ _ => h.same rfl rfl rfl) s h

theorem Hand.afterRelease (h : Hand full p s) : Hand full p s.afterRelease :=
  State.afterRelease_keeps Hand.keptByGrant (fun _ _ h _ _ => h.same rfl rfl rfl) s h

end Sys2Proof.Machine
end

section
/-! SUPPORT. The operations of the trial sequencer and of a shed between the laws of one port: what takes a port in hand to a
port between two steps. -/

namespace Sys2Proof.Machine

variable {full : Prop} {q q' : Port} {g : Nat} {w : List QueueEntry} {s t : State} {p : PortId}

theorem session_map {o : Option Session} {x : Session} (f : Session → Session) (h : o = some x) : o.map f = some (f x) :=
  h ▸ rfl

/-- A session in hand in another phase, the lines as they were. -/
theorem Port.Free.rephase (h : q.Free full g w) (hst : q'.state = q.state) (hs : q'.switchOn = q.switchOn)
    (hp : q'.presented = q.presented) (hr : q'.rePresent = q.rePresent)
    (hy : ∃ y, q'.session = some y ∧ y.phase.isSome = true ∧ y.held = none) : q'.Free full g w := by
  obtain ⟨y, hy1, hy2, hy3⟩ := hy
  refine ⟨hst.trans h.state, h.waits, ⟨y, hy1, hy2, hy3⟩, fun hf => ?_⟩
  refine (((h.granted hf).lit (by rw [h.state]; rfl)).congr hs hp hr).granted (Or.inl (hst.trans h.state)) fun x hx => ?_
  rw [hy1] at hx
  cases hx
  exact Session.not_suspended (Or.inl hy2)

theorem Hand.rephase (h : Hand full p s) (f : Port → Port) (hst : (f (s.port p)).state = (s.port p).state)
    (hs : (f (s.port p)).switchOn = (s.port p).switchOn) (hp : (f (s.port p)).presented = (s.port p).presented)
    (hr : (f (s.port p)).rePresent = (s.port p).rePresent)
    (hy : ∀ x, (s.port p).session = some x → x.held = none →
      ∃ y, (f (s.port p)).session = some y ∧ y.phase.isSome = true ∧ y.held = none) : Hand full p (s.modPort p f) := by
  obtain ⟨x, hx, -, h2⟩ := h.free.session
  refine ⟨(Elsewhere.modPort s p f).ok h.others, ?_⟩
  rw [State.port_modPort_same]
  exact h.free.rephase hst hs hp hr (hy x hx h2)

/-! ### STEADY, windows, the walk -/

/-- The port unit as it enters STEADY in OCCUPIED (R53). -/
def Port.steadied (q : Port) : Port :=
  { q with tripCount := 0, session := q.session.map fun x => { x.endWalk with phase := some .steady } }

/-- The port unit as it enters STEADY in HOLD (R32). -/
def Port.steadiedHeld (q : Port) : Port :=
  { q with tripCount := 0, session := q.session.map fun x => { x.endWalk with held := some .steady } }

/-- The port unit as an evaluation window starts (R54). -/
def Port.windowed (q : Port) : Port :=
  { q with
    timers := { q.timers with evaluation := some (seconds q.policy.evaluationWindow) }
    session := q.session.map fun x =>
      { x with phase := some .evaluating, target := none, sum := 0, count := 0, probeSeen := q.detector = .replying } }

theorem State.enterSteady_eq (s : State) (p : PortId) :
    s.enterSteady p = (s.modPort p Port.steadied).raisePort p .steady := rfl

theorem State.enterSteadyHeld_eq (s : State) (p : PortId) :
    s.enterSteadyHeld p = (s.modPort p Port.steadiedHeld).raisePort p .steady := rfl

theorem State.startWindow_eq (s : State) (p : PortId) : s.startWindow p = s.modPort p Port.windowed := rfl

theorem Port.phase_of_session {x : Session} (h : q.session = some x) : q.phase = x.phase := by
  simp [Port.phase, h]

theorem Hand.enterSteady (h : Hand full p s) : Hand full p (s.enterSteady p) :=
  Hand.raisePort (h.rephase Port.steadied rfl rfl rfl rfl fun _ hx hh => ⟨_, session_map _ hx, rfl, hh⟩) _

theorem Hand.phase_modSession {f : Session → Session} {ph : Phase} (h : Hand full p s) (hf : ∀ x, (f x).phase = some ph) :
    ((s.modSession p f).port p).phase = some ph := by
  obtain ⟨x, hx, -⟩ := h.free.session
  simp [Port.phase, hx, hf]

theorem Hand.phase_enterSteady (h : Hand full p s) : ((s.enterSteady p).port p).phase = some .steady := by
  obtain ⟨x, hx, -⟩ := h.free.session
  simp [State.enterSteady, Port.phase, hx]

theorem Hand.sound_enterSteady (h : Hand full p s) : Sound full (s.enterSteady p) :=
  h.enterSteady.sound (by rw [h.phase_enterSteady]; decide)

theorem Hand.startWindow (h : Hand full p s) : Sound full (s.startWindow p) := by
  have a : Hand full p (s.modPort p Port.windowed) :=
    h.rephase Port.windowed rfl rfl rfl rfl fun _ hx hh => ⟨_, session_map _ hx, rfl, hh⟩
  obtain ⟨x, hx, -⟩ := h.free.session
  refine a.sound ?_
  rw [State.port_modPort_same, Port.phase_of_session (session_map _ hx)]
  simp

theorem Hand.stepReached (h : Hand full p s) (k : StepKind) : Sound full (s.stepReached p k) := by
  cases k
  · exact h.startWindow
  · exact h.sound_enterSteady

theorem Hand.compute (h : Hand full p s) (retry : Bool) : Hand full p (s.compute p retry) :=
  h.alike _ (Port.Alike.mapSession _ _ fun _ => ⟨rfl, rfl, rfl⟩)

/-- Where a letter is presented with nothing in flight, the grant is what it offers. -/
theorem Port.Granted.atOnce (h : q.Granted g) {c : Sig} (hc : q.atOnce c = true) : (q.turned c).offered = g := by
  simp only [Port.atOnce, Bool.and_eq_true, Option.isNone_iff_eq_none, beq_iff_eq] at hc
  exact h.exact.1 _ hc.2 hc.1

theorem Hand.reportPresented (h : Hand full p s) {sig : Sig} (hat : (s.port p).atOnce sig = true) :
    Hand full p (s.reportPresented p sig) := by
  unfold State.reportPresented
  split
  · rename_i hlt
    refine Hand.afterRelease ⟨(Elsewhere.fallGrant s p _).ok h.others, ?_⟩
    rw [State.port_fallGrant, State.waits_fallGrant]
    refine ⟨h.free.state, h.free.waits, h.free.session, fun hf => ?_⟩
    have := (h.free.granted hf).atOnce hat
    have := Port.turned_offered (s.port p) sig
    omega
  · exact h

theorem Hand.representFor (h : Hand full p s) {target : Sig} (who : Requester)
    (ht : full → target.offered ≤ s.grant p) : Sound full (s.representFor p target who) := by
  refine Sound.of_others ((Elsewhere.modPort s p _).ok h.others) ?_
  rw [State.representFor, State.port_modPort_same]
  exact h.free.represents (fun hf => (Port.turned_offered _ _).trans (ht hf)) fun _ => Nat.le_refl _

theorem Hand.towardStep (h : Hand full p s) {st : TrialStep} (ht : full → st.sig.offered ≤ s.grant p) :
    Sound full (s.towardStep p st) := by
  unfold State.towardStep
  split
  · rename_i hat
    exact (h.reportPresented hat).stepReached _
  · exact h.representFor _ ht

/-- An upgrade granted at once raises the grant and asks for the re-present in one event (R123). -/
theorem Hand.upgrade (h : Hand full p s) {st : TrialStep} (hb : (s.port p).hubTurns st.sig = false)
    (hlt : s.grant p < st.sig.offered) : Sound full ((s.setGrant p st.sig.offered).towardStep p st) := by
  have hturn : (s.port p).turned st.sig = st.sig := by simp [Port.turned, hb]
  by_cases hat : (s.port p).atOnce st.sig = true
  · have hnf : ¬full := fun hf => by
      have := (h.free.granted hf).atOnce hat
      rw [hturn] at this
      omega
    refine Hand.towardStep ⟨(Elsewhere.setGrant s p _).ok h.others, ?_⟩ fun hf => absurd hf hnf
    exact ⟨h.free.state, h.free.waits, h.free.session, fun hf => absurd hf hnf⟩
  · unfold State.towardStep
    rw [State.port_setGrant, if_neg hat]
    refine Sound.of_others (((Elsewhere.setGrant s p _).trans (Elsewhere.modPort _ p _)).ok h.others) ?_
    rw [State.representFor, State.port_modPort_same, State.port_setGrant, State.grant_modPort, State.grant_setGrant_same]
    exact h.free.represents (fun _ => Port.turned_offered _ _) fun _ => Nat.le_of_lt hlt

theorem State.waits_joinQueue (s : State) (p r : PortId) (sig : Sig) :
    (s.joinQueue p sig).waits r
      = s.waits r ++ if p = r then [⟨p, sig, seconds s.budget.waitLimit⟩] else [] := by
  simp only [State.waits, State.joinQueue, State.budget_raisePort, State.queue_setQueue, List.filter_append]
  congr 1
  by_cases h : p = r <;> simp [h]

/-- The port joins the queue and its session waits (R127). -/
theorem Hand.waits (h : Hand full p s) {st : TrialStep} (hlt : s.grant p < st.sig.offered) :
    Sound full ((s.joinQueue p st.sig).modSession p fun x =>
      { x with phase := some .waitingBudget, target := some st.sig }) := by
  refine Sound.of_others (p := p) (fun r hr => ?_) ?_
  · rw [State.port_modSession_ne _ _ _ _ hr, State.waits_modSession, State.waits_joinQueue, if_neg (Ne.symm hr),
      List.append_nil]
    exact h.others r hr
  · rw [State.waits_modSession, State.waits_joinQueue, if_pos rfl, h.free.waits]
    obtain ⟨x, hx, -, h2⟩ := h.free.session
    have hfree := h.free.rephase (q' := ((s.joinQueue p st.sig).modSession p fun x =>
      { x with phase := some .waitingBudget, target := some st.sig }).port p)
      (by rw [State.port_modSession_same]; rfl) (by rw [State.port_modSession_same]; rfl)
      (by rw [State.port_modSession_same]; rfl) (by rw [State.port_modSession_same]; rfl)
      ⟨{ x with phase := some .waitingBudget, target := some st.sig },
        by rw [State.port_modSession_same]; exact congrArg (Option.map _) hx, rfl, h2⟩
    have hph : (((s.joinQueue p st.sig).modSession p fun x =>
        { x with phase := some .waitingBudget, target := some st.sig }).port p).phase = some .waitingBudget := by
      rw [State.port_modSession_same]
      exact congrArg (fun o : Option Session => (o.map fun x =>
        { x with phase := some .waitingBudget, target := some st.sig }).bind (·.phase)) hx
    obtain ⟨f1, -, ⟨y, hy, f2, f3⟩, f4⟩ := hfree
    refine ⟨?_, by simp, iff_of_true (by simp) hph, f4, fun _ e he => ?_⟩
    · unfold Port.sessionLaw
      rw [f1, hy]
      exact ⟨f2, f3⟩
    · simp only [List.nil_append, List.mem_singleton] at he
      subst he
      exact hlt

theorem Hand.takeHead (h : Hand full p s) {st : TrialStep} (rest : List TrialStep)
    (hb : (s.port p).hubTurns st.sig = false) : Sound full (s.takeHead p st rest) := by
  have a : Hand full p (s.setCurrent p st rest) := h.modSession _ fun _ => ⟨rfl, rfl, rfl⟩
  have hg : (s.setCurrent p st rest).grant p = s.grant p := rfl
  have hb' : ((s.setCurrent p st rest).port p).hubTurns st.sig = false := by
    rw [State.setCurrent, State.port_modSession_same]
    exact hb
  unfold State.takeHead
  dsimp only
  split
  · rename_i hle
    exact a.towardStep fun _ => hle
  · rename_i hgt
    split
    · exact a.upgrade hb' (Nat.lt_of_not_le hgt)
    · exact a.waits (Nat.lt_of_not_le hgt)

theorem Hand.exhaust (h : Hand full p s) : Sound full (s.exhaust p) := by
  have a : Hand full p (s.modSession p fun x => { x with remaining := [], current := none }) :=
    h.modSession _ fun _ => ⟨rfl, rfl, rfl⟩
  unfold State.exhaust
  dsimp only
  split
  · rename_i hat
    exact (a.reportPresented hat).sound_enterSteady
  · exact a.representFor _ fun hf => (a.free.granted hf).base (by rw [a.free.state]; decide)

/-- The first of the remaining steps, not blocked by the hub, or exhaustion (R49, R50). -/
theorem Hand.walk (h : Hand full p s) (hb : (s.port p).headBlocked = false) : Sound full (s.walk p) := by
  obtain ⟨x, hx, -⟩ := h.free.session
  unfold State.walk
  rw [hx]
  dsimp only
  split
  · exact h.exhaust
  · rename_i st rest hr
    refine h.takeHead rest ?_
    unfold Port.headBlocked at hb
    rw [hx] at hb
    dsimp only at hb
    rwa [hr] at hb

/-! ### A computation leaves no blocked head -/

/-- In DATA mode only data-compatible signatures are ordered (R44, R45). -/
theorem orderedSteps_data (policy : SessionPolicy) (threshold : Nat) (e : Option Entry) {st : TrialStep}
    (h : st ∈ orderedSteps policy .data threshold e) : st.sig.chargeOnly = false := by
  have hc : ∀ c, c ∈ candidates policy .data → c.chargeOnly = false := fun c hc => by
    have : c = .A := by simpa using (List.mem_filter.mp hc).2
    rw [this]
    rfl
  have hev : ∀ l : List Sig, (∀ c, c ∈ l → c ∈ candidates policy .data) → st ∈ evaluateSteps l →
      st.sig.chargeOnly = false := fun l hl hm => by
    obtain ⟨c, hcl, rfl⟩ := List.mem_map.mp hm
    exact hc c (hl c hcl)
  have hlead : ∀ a c, c ∈ leading a (candidates policy .data) → c ∈ candidates policy .data := fun a c hm => by
    unfold leading at hm
    split at hm
    · rename_i ha
      rw [List.mem_singleton.mp hm]
      exact ha
    · cases hm
  unfold orderedSteps at h
  dsimp only at h
  split at h
  · exact hev _ (fun _ => id) h
  · split at h
    · split at h
      · split at h
        · rename_i hp
          rw [List.mem_singleton.mp h]
          simp only [pinPasses, Bool.and_eq_true, Bool.or_eq_true, decide_eq_true_eq, reduceCtorEq, false_or] at hp
          simpa using hp.1
        · cases h
      · cases h
    · split at h
      · exact hev _ (fun c hm => (List.mem_append.mp hm).elim (hlead _ c) fun hm => (List.mem_filter.mp hm).1) h
      · exact hev _ (fun _ => id) h
    · split at h
      · exact hev _ (fun c hm => (List.mem_append.mp hm).elim (hlead _ c) fun hm => (List.mem_filter.mp hm).1) h
      · exact hev _ (fun _ => id) h
    · exact hev _ (fun _ => id) h

theorem mem_of_mem_cutAfterPresent {l : List TrialStep} {st : TrialStep} (h : st ∈ cutAfterPresent l) : st ∈ l := by
  induction l with
  | nil => exact h
  | cons a l ih =>
    unfold cutAfterPresent at h
    split at h
    · rw [List.mem_singleton.mp h]
      exact List.mem_cons_self
    · rcases List.mem_cons.mp h with e | e
      · exact e ▸ List.mem_cons_self
      · exact List.mem_cons_of_mem _ (ih e)

theorem stepUnder_sig (retry : Bool) (l : List VerdictEntry) (st : TrialStep) : (stepUnder retry l st).sig = st.sig := by
  unfold stepUnder
  split
  · rfl
  · split <;> rfl
  · rfl
  · rfl

/-- The verdicts bring no signature in (R46). -/
theorem sig_of_mem_underVerdicts {retry : Bool} {l : List VerdictEntry} {steps : List TrialStep} {st : TrialStep}
    (h : st ∈ underVerdicts retry l steps) : ∃ st0, st0 ∈ steps ∧ st.sig = st0.sig := by
  obtain ⟨st0, h0, rfl⟩ := List.mem_map.mp (mem_of_mem_cutAfterPresent h)
  exact ⟨st0, (List.mem_filter.mp h0).1, stepUnder_sig _ _ _⟩

/-- The steps computed in DATA mode present nothing charge-only. -/
theorem State.computedSteps_data (s : State) (retry : Bool) (x : Session) {st : TrialStep}
    (h : st ∈ s.computedSteps retry .data x) : st.sig.chargeOnly = false := by
  obtain ⟨st0, h0, e⟩ := sig_of_mem_underVerdicts h
  rw [e]
  exact orderedSteps_data _ _ _ h0

/-- The port unit after a computation (R47). -/
theorem State.port_compute (s : State) (p : PortId) (retry : Bool) :
    (s.compute p retry).port p = { s.port p with session := (s.port p).session.map fun x =>
      { x with
        mode := sampledMode (s.port p).pins.hen
        remaining := s.computedSteps retry (sampledMode (s.port p).pins.hen) x
        recomputeDue := false } } := State.port_modPort_same _ _ _

theorem State.headBlocked_compute (s : State) (p : PortId) (retry : Bool) :
    ((s.compute p retry).port p).headBlocked = false := by
  rw [State.port_compute]
  unfold Port.headBlocked Port.hubTurns
  cases hx : (s.port p).session with
  | none => rfl
  | some x =>
    dsimp only [Option.map_some]
    split
    · rfl
    · rename_i st rest hr
      cases hh : (s.port p).pins.hen with
      | false => simp
      | true =>
        rw [hh] at hr
        simp [State.computedSteps_data s retry x (hr ▸ List.mem_cons_self)]

/-- A computation followed by its first step: the head is never blocked. -/
theorem State.recompute_eq (s : State) (p : PortId) : s.recompute p = (s.compute p false).walk p := by
  unfold State.recompute State.takeStep
  rw [State.headBlocked_compute]
  rfl

theorem Hand.recompute (h : Hand full p s) : Sound full (s.recompute p) := by
  rw [State.recompute_eq]
  exact (h.compute false).walk (State.headBlocked_compute s p false)

theorem Hand.takeStep (h : Hand full p s) : Sound full (s.takeStep p) := by
  unfold State.takeStep
  split
  · exact (h.compute false).walk (State.headBlocked_compute s p false)
  · rename_i hb
    exact h.walk (by simpa using hb)

theorem Hand.nextStep (h : Hand full p s) : Sound full (s.nextStep p) := by
  unfold State.nextStep
  split
  · exact h.recompute
  · exact h.takeStep

theorem State.phase_compute (s : State) (p : PortId) (retry : Bool) :
    ((s.compute p retry).port p).phase = (s.port p).phase := by
  rw [State.port_compute]
  unfold Port.phase
  cases (s.port p).session <;> rfl

theorem Hand.reAim (h : Hand full p s) (hp : (s.port p).phase ≠ some .waitingBudget) : Sound full (s.reAim p) := by
  have a := h.compute false
  unfold State.reAim
  dsimp only
  split
  · exact h.sound hp
  · split
    · exact a.takeStep
    · refine Sound.modSession (a.sound ?_) _ fun _ => ⟨rfl, rfl, rfl⟩
      rwa [State.phase_compute]

theorem Hand.steadyOutcome (h : Hand full p s) : Sound full (s.steadyOutcome p) := by
  unfold State.steadyOutcome
  dsimp only
  split
  · exact h.enterSteady.reAim (by rw [h.phase_enterSteady]; decide)
  · exact h.sound_enterSteady

theorem Hand.beginTrials (h : Hand full p s) : Sound full (s.beginTrials p) :=
  Hand.recompute (h.modSession _ fun _ => ⟨rfl, rfl, rfl⟩)

theorem Hand.foldRequest (h : Hand full p s) (n : SlotId) (sig : Sig) (b : Bool) : Hand full p (s.foldRequest n sig b) :=
  h.same rfl rfl rfl

theorem Hand.recordVerdict (h : Hand full p s) (sig : Sig) (v : Verdict) : Hand full p (s.recordVerdict p sig v) := by
  unfold State.recordVerdict
  split
  · exact h
  · rename_i x _
    have a : Hand full p (s.modSession p fun y =>
        { y with verdicts := recordIn y.verdicts ⟨sig, v, v.counts && x.boundSlot.isSome⟩ }) :=
      h.modSession _ fun _ => ⟨rfl, rfl, rfl⟩
    dsimp only
    split
    · exact a
    · split
      · exact a.foldRequest _ _ _
      · exact a

theorem Hand.followVerdict (h : Hand full p s) (v : Verdict) : Sound full (s.followVerdict p v) := by
  cases v
  · exact h.steadyOutcome
  · exact h.nextStep
  · exact h.steadyOutcome

theorem Hand.judge (h : Hand full p s) (x : Session) (sig : Sig) : Sound full (s.judge p x sig) := by
  have a : Hand full p (s.modSession p fun y => { y with lastMean := some (windowMean x.sum x.count) }) :=
    h.modSession _ fun _ => ⟨rfl, rfl, rfl⟩
  have b := (a.recordVerdict sig (verdictFor sig (windowMean x.sum x.count) x.probeSeen)).raisePort .verdict
  exact b.followVerdict _

/-- A computation call acts at once on a session in STEADY alone (R110 to R113). -/
theorem Port.phase_of_aim (h : q.callEffect = .aim) : q.phase = some .steady := by
  unfold Port.callEffect at h
  cases hx : q.session with
  | none => simp [hx] at h
  | some x =>
    rw [hx] at h
    have hp : q.phase = x.phase := by simp [Port.phase, hx]
    rw [hp]
    cases hs : q.state <;> rw [hs] at h <;> simp only [reduceCtorEq] at h
    · unfold callInPhase at h
      split at h <;> first | assumption | (split at h <;> cases h) | cases h
    · unfold callInHold at h
      split at h <;> first | (split at h <;> cases h) | cases h

theorem Sound.computationCall (h : Sound full s) : Sound full (s.computationCall p) := by
  unfold State.computationCall
  split
  · exact h
  · exact h.modSession _ fun _ => ⟨rfl, rfl, rfl⟩
  · rename_i ha
    have hp := Port.phase_of_aim ha
    exact (h.hand_of_phase hp (by decide)).reAim (by rw [hp]; decide)

/-! ### Sheds -/

theorem Session.abandon_keeps (x : Session) :
    x.abandon.phase = x.phase ∧ x.abandon.held = x.held ∧ x.abandon.presented = x.presented := by
  unfold Session.abandon
  split <;> exact ⟨rfl, rfl, rfl⟩

@[simp] theorem Port.turned_P (q : Port) : q.turned .P = .P := by
  unfold Port.turned
  split <;> rfl

theorem Port.atOnce_P : q.atOnce .P = true ↔ q.rePresent = none ∧ q.presented = some .P := by
  simp [Port.atOnce]

/-- With P shown at rest the grant is the base already. -/
theorem Port.Granted.base_of_atOnce (h : q.Granted g) (hat : q.atOnce .P = true) : baseGrant = g := by
  have := h.atOnce hat
  rwa [Port.turned_P] at this

theorem Hand.fallGrant_base (h : Hand full p s) (hat : (s.port p).atOnce .P = true) :
    Hand full p (s.fallGrant p baseGrant) := by
  refine ⟨(Elsewhere.fallGrant s p _).ok h.others, ?_⟩
  rw [State.port_fallGrant, State.waits_fallGrant, State.grant_fallGrant_same]
  refine ⟨h.free.state, h.free.waits, h.free.session, fun hf => ?_⟩
  rw [(h.free.granted hf).base_of_atOnce hat]
  exact h.free.granted hf

theorem Sound.fallGrant_base (h : Sound full s) (hat : (s.port p).atOnce .P = true) :
    Sound full (s.fallGrant p baseGrant) := by
  refine Sound.of_others ((Elsewhere.fallGrant s p _).ok fun r _ => h r) ?_
  rw [State.port_fallGrant, State.waits_fallGrant, State.grant_fallGrant_same]
  refine ⟨(h p).session, (h p).single, (h p).waits, fun hf => ?_, fun hf => ?_⟩ <;>
    rw [((h p).granted hf).base_of_atOnce hat]
  · exact (h p).granted hf
  · exact (h p).need hf

/-- Outside OCCUPIED a port has no queue entry. -/
theorem Port.Ok.waits_nil (h : q.Ok full g w) (hs : q.state ≠ .occupied) : w = [] := by
  by_contra hw
  exact hs (Port.sessionLaw_occupied h.session (h.waits.mp hw))

/-- A session held another way, the lines as they were (R32, R33). -/
theorem Port.Ok.rehold (h : q.Ok full g w) (hs : q.state = .hold) (hst : q'.state = q.state)
    (hsw : q'.switchOn = q.switchOn) (hp : q'.presented = q.presented) (hr : q'.rePresent = q.rePresent)
    (hy : ∃ y, q'.session = some y ∧ y.phase = none ∧ y.held.isSome = true) : q'.Ok full g w := by
  obtain ⟨y, hy, h1, h2⟩ := hy
  have hw := h.waits_nil (by rw [hs]; decide)
  refine ⟨?_, by simp [hw], by simp [hw, Port.phase, hy, h1], fun hf => ?_, fun _ e he => by simp [hw] at he⟩
  · unfold Port.sessionLaw
    rw [hst, hs, hy]
    exact ⟨h1, h2⟩
  · refine (((h.granted hf).lit (by rw [hs]; rfl)).congr hsw hp hr).granted (Or.inr (Or.inl (hst.trans hs)))
      fun x hx => ?_
    rw [hy] at hx
    cases hx
    exact Session.not_suspended (Or.inr h2)

theorem Port.Ok.session_held (h : q.Ok full g w) (hs : q.state = .hold) :
    ∃ x, q.session = some x ∧ x.phase = none ∧ x.held.isSome = true := by
  have hl := h.session
  unfold Port.sessionLaw at hl
  rw [hs] at hl
  cases hx : q.session with
  | none => simp [hx] at hl
  | some x =>
    rw [hx] at hl
    exact ⟨x, rfl, hl⟩

theorem Sound.rehold (h : Sound full s) (hs : (s.port p).state = .hold) (f : Port → Port)
    (hst : (f (s.port p)).state = (s.port p).state) (hsw : (f (s.port p)).switchOn = (s.port p).switchOn)
    (hp : (f (s.port p)).presented = (s.port p).presented) (hr : (f (s.port p)).rePresent = (s.port p).rePresent)
    (hy : ∀ x, (s.port p).session = some x → x.phase = none →
      ∃ y, (f (s.port p)).session = some y ∧ y.phase = none ∧ y.held.isSome = true) : Sound full (s.modPort p f) := by
  obtain ⟨x, hx, h1, -⟩ := (h p).session_held hs
  refine Sound.of_others ((Elsewhere.modPort s p f).ok fun r _ => h r) ?_
  rw [State.port_modPort_same]
  exact (h p).rehold hs hst hsw hp hr (hy x hx h1)

theorem Sound.enterSteadyHeld (h : Sound full s) (hs : (s.port p).state = .hold) : Sound full (s.enterSteadyHeld p) :=
  Sound.raisePort (h.rehold hs Port.steadiedHeld rfl rfl rfl rfl fun _ hx hn => ⟨_, session_map _ hx, hn, rfl⟩) _

theorem Sound.holdRepresenting (h : Sound full s) (hs : (s.port p).state = .hold) : Sound full (s.holdRepresenting p) :=
  h.rehold hs (fun q => { q with session := q.session.map fun x => { x with held := some .representing } }) rfl rfl rfl rfl
    fun _ hx hn => ⟨_, session_map _ hx, hn, rfl⟩

theorem Sound.shedOccupied (h : Sound full s) (hs : (s.port p).state = .occupied) : Sound full (s.shedOccupied p) := by
  have a : Hand full p ((s.withdraw p).modPort p fun q =>
      { q with
        timers := { q.timers with settle := none, identityWait := none, evaluation := none }
        session := q.session.map (·.shedNow) }) := by
    refine (h.hand hs).alike _ ⟨rfl, rfl, rfl, rfl, rfl, ?_⟩
    exact (Port.Alike.mapSession _ Session.shedNow Session.abandon_keeps).session
  unfold State.shedOccupied
  dsimp only
  split
  · rename_i hat
    exact (a.fallGrant_base hat).sound_enterSteady
  · exact a.representFor _ fun hf => (a.free.granted hf).base (by rw [a.free.state]; decide)

/-- A request with what its event does to the port's state and session, in a state whose lines are on (R10). -/
theorem Sound.request (h : Sound full s) (hon : (s.port p).state.isOn = true) (target : Sig) (who : Requester)
    (f : Port → Port) (ht : full → target.offered ≤ s.grant p)
    (hp : (f (s.port p)).presented = ((s.port p).requestRePresent target who).presented)
    (hr : (f (s.port p)).rePresent = ((s.port p).requestRePresent target who).rePresent)
    (hsw : (f (s.port p)).switchOn = ((s.port p).requestRePresent target who).switchOn)
    (hst : (f (s.port p)).state.lit) (hl : (f (s.port p)).sessionLaw) (hw : s.waits p = [])
    (hph : (f (s.port p)).phase ≠ some .waitingBudget)
    (hsus : ∀ x, (f (s.port p)).session = some x → x.suspended = false) : Sound full (s.modPort p f) := by
  refine Sound.of_others ((Elsewhere.modPort s p f).ok fun r _ => h r) ?_
  rw [State.port_modPort_same, State.grant_modPort, State.waits_modPort, hw]
  refine ⟨hl, by simp, by simp [hph], fun hf => ?_, by simp⟩
  exact ((h p).granted hf).request hon ((Port.turned_offered _ _).trans (ht hf)) (Nat.le_refl _) hp hr hsw hst hsus

/-- The session of a port after a request. -/
theorem Port.session_requestRePresent (q : Port) (target : Sig) (who : Requester) {x : Session} (hx : q.session = some x) :
    (q.requestRePresent target who).session = some x ∨ (q.requestRePresent target who).session = some (x.follow none) := by
  unfold Port.requestRePresent
  split
  · split
    · exact Or.inl hx
    · right
      simp [Port.startRePresent, Port.goNeutral, hx]
  · exact Or.inl hx

theorem Session.follow_keeps (c : Option Sig) (x : Session) :
    (x.follow c).phase = x.phase ∧ (x.follow c).held = x.held := by
  unfold Session.follow
  split <;> exact ⟨rfl, rfl⟩

theorem Sound.shedHeld (h : Sound full s) (hs : (s.port p).state = .hold) : Sound full (s.shedHeld p) := by
  have a : Sound full (s.modSession p (·.shedNow)) := h.modSession _ Session.abandon_keeps
  have ha : ((s.modSession p (·.shedNow)).port p).state = .hold := by
    rw [State.port_modSession_same]
    exact hs
  unfold State.shedHeld
  dsimp only
  split
  · rename_i hat
    exact (a.fallGrant_base hat).enterSteadyHeld (by rw [State.port_fallGrant]; exact ha)
  · obtain ⟨x, hx, h1, h2⟩ := (a p).session_held ha
    have hk := ((s.modSession p (·.shedNow)).port p).requestRePresent_keeps .P .shed
    obtain ⟨y, hy, hyp⟩ : ∃ y, (((s.modSession p (·.shedNow)).port p).requestRePresent .P .shed).session = some y
        ∧ y.phase = none := by
      rcases Port.session_requestRePresent _ .P .shed hx with e | e
      · exact ⟨x, e, h1⟩
      · exact ⟨_, e, (x.follow_keeps none).1.trans h1⟩
    refine a.request (by rw [ha]; rfl) .P .shed _ (fun hf => ((a p).granted hf).base (by rw [ha]; decide)) rfl rfl rfl
      (Or.inr (Or.inl (hk.1.trans ha))) ?_ ((a p).waits_nil (by rw [ha]; decide)) ?_ fun z hz => ?_
    · unfold Port.sessionLaw
      dsimp only
      rw [hk.1, ha, hy]
      exact ⟨hyp, rfl⟩
    · rw [Port.phase_of_session (session_map _ hy)]
      simp [hyp]
    · dsimp only at hz
      rw [hy] at hz
      cases hz
      exact Session.not_suspended (Or.inr rfl)

/-- A suspended session's port: its lines are neutral with nothing in flight. -/
theorem Port.Granted.dark (h : q.Granted g) (hs : q.state = .recovery ∨ q.state = .powering) :
    q.presented = none ∧ q.rePresent = none := by
  rcases hs with e | e
  · exact h.off (by rw [e]; rfl)
  · exact h.cover.2.2.1 e

theorem Sound.shedSuspended (h : Sound full s) (hs : (s.port p).state = .recovery ∨ (s.port p).state = .powering) :
    Sound full (s.shedSuspended p) := by
  unfold State.shedSuspended
  split
  · rename_i hx
    obtain ⟨x, hx⟩ := Option.isSome_iff_exists.mp hx
    have hl := (h p).session
    refine Sound.of_others ((Elsewhere.modPort s p _).trans (Elsewhere.fallGrant _ p _) |>.ok fun r _ => h r) ?_
    rw [State.port_fallGrant, State.waits_fallGrant, State.grant_fallGrant_same, State.port_modSession_same,
      State.waits_modSession]
    have hw := (h p).waits_nil (by rcases hs with e | e <;> rw [e] <;> decide)
    unfold Port.sessionLaw at hl
    rw [hx] at hl
    have hn : (s.port p).fixed = true ∧ x.phase = none ∧ x.held = none := by
      rcases hs with e | e <;> rw [e] at hl <;> exact hl
    refine ⟨?_, by simp [hw], by simp [hw, Port.phase, hx, hn.2.1], fun hf => ?_, by simp [hw]⟩
    · unfold Port.sessionLaw
      rw [hx]
      rcases hs with e | e <;> rw [e] <;> exact hn
    · obtain ⟨hp, hr⟩ := ((h p).granted hf).dark hs
      refine ⟨((h p).granted hf).on, fun _ => ⟨hp, hr⟩, ⟨fun c hc => ?_, fun r' hr' => ?_, fun _ => ⟨hp, hr⟩,
        fun y hy _ c hc => ?_⟩, ⟨fun c hc => ?_, fun hn => ?_⟩, fun _ => Nat.le_refl _⟩
      · exact absurd hc (by simp [hp])
      · exact absurd hr' (by simp [hr])
      · simp only [hx, Option.map_some, Option.some.injEq] at hy
        subst hy
        cases hc
        exact Nat.le_refl _
      · exact absurd hc (by simp [hp])
      · simp [hx] at hn
  · exact h

theorem Sound.shedPort (h : Sound full s) : Sound full (s.shedPort p) := by
  unfold State.shedPort
  split
  · rename_i hs
    exact h.shedOccupied hs
  · rename_i hs
    exact h.shedHeld hs
  · rename_i hs
    exact h.shedSuspended (Or.inl hs)
  · rename_i hs
    exact h.shedSuspended (Or.inr hs)
  all_goals exact h

theorem Sound.shedVictims (h : Sound full s) (l : List PortId) : Sound full (l.foldl State.shedVictim s) := by
  induction l generalizing s with
  | nil => exact h
  | cons p l ih => exact ih (Sound.shedPort (h.raisePort _))

theorem Sound.startShed (h : Sound full s) (total : Nat) : Sound full (s.startShed total) :=
  Sound.afterRelease (Sound.shedVictims (h.same (t := { s with budget :=
    { s.budget with pendingTotal := some total, victims := victimMarks (s.victimsFor total) } }) rfl rfl rfl) _)

theorem Sound.applyTotal (h : Sound full s) (total : Nat) : Sound full (s.applyTotal total) :=
  have a : Sound full ({ s with budget := { s.budget with total := total } }.raiseDevice .budgetApplied) :=
    h.same rfl rfl rfl
  a.serve _

end Sys2Proof.Machine
end

section
/-! SUPPORT. The life of a session and of a port between the laws of one port: opening, ending, hold, POWERING, trips, link
recovery, the hub, the end of a re-present, binding. -/

namespace Sys2Proof.Machine

variable {full : Prop} {q q' : Port} {g : Nat} {w : List QueueEntry} {s t : State} {p : PortId}

/-! ### Units at rest -/

/-- In the states in which lines rest or move, the session law leaves no session suspended. -/
theorem Port.sessionLaw_lit (h : q.sessionLaw) (hst : q.state.lit) {x : Session} (hx : q.session = some x) :
    x.suspended = false := by
  unfold Port.sessionLaw at h
  rw [hx] at h
  rcases hst with e | e | e <;> rw [e] at h
  · exact Session.not_suspended (Or.inl h.1)
  · exact Session.not_suspended (Or.inr h.2)
  · cases h

/-- A unit whose lines are on, without a queue entry. -/
theorem Port.ok_of_lit (hst : q.state.lit) (hl : q.sessionLaw) (hp : q.phase ≠ some .waitingBudget)
    (hg : full → q.Lit g) : q.Ok full g [] :=
  ⟨hl, by simp, by simp [hp], fun hf => (hg hf).granted hst fun _ hx => Port.sessionLaw_lit hl hst hx, by simp⟩

/-- A unit without a session, its lines neutral, with the base or, DISABLED, with nothing. -/
theorem Port.ok_of_dark (ho : q.state ≠ .occupied) (hh : q.state ≠ .hold) (hx : q.session = none)
    (hp : q.presented = none) (hr : q.rePresent = none) (hon : q.state.isOn = true → q.switchOn = true)
    (hg : full → q.state ≠ .disabled → g = 500) : q.Ok full g [] := by
  refine ⟨?_, by simp, by simp [Port.phase, hx], fun hf => ?_, by simp⟩
  · unfold Port.sessionLaw
    rw [hx]
    cases hs : q.state <;> simp_all
  · refine ⟨hon, fun _ => ⟨hp, hr⟩, ⟨fun c hc => ?_, fun r hr' => ?_, fun _ => ⟨hp, hr⟩, fun x hx' => ?_⟩,
      ⟨fun c hc => ?_, fun _ hs => ?_⟩, fun hd => (hg hf hd).ge⟩
    · rw [hp] at hc
      cases hc
    · rw [hr] at hr'
      cases hr'
    · rw [hx] at hx'
      cases hx'
    · rw [hp] at hc
      cases hc
    · refine hg hf fun hd => ?_
      rw [hd] at hs
      simp at hs

/-- A unit put in the place of a port that has no queue entry. -/
theorem Sound.put (h : Sound full s) (hw : s.waits p = []) (f : Port → Port)
    (hok : (f (s.port p)).Ok full (s.grant p) []) : Sound full (s.modPort p f) := by
  refine Sound.of_others ((Elsewhere.modPort s p f).ok fun r _ => h r) ?_
  rw [State.port_modPort_same, State.waits_modPort, hw]
  exact hok

/-- The session law reads where a session is in a phase and where it is held, no more. -/
theorem Port.sessionLaw_congr (h : q.sessionLaw) (hs : q'.state = q.state) (hf : q'.fixed = q.fixed)
    (hx : q'.session.map (fun x => (x.phase.isSome, x.held.isSome))
      = q.session.map fun x => (x.phase.isSome, x.held.isSome)) : q'.sessionLaw := by
  unfold Port.sessionLaw at h ⊢
  rw [hs, hf]
  cases hq : q.session with
  | none =>
    rw [hq, Option.map_none, Option.map_eq_none_iff] at hx
    rw [hq] at h
    rw [hx]
    exact h
  | some x =>
    rw [hq] at hx h
    obtain ⟨y, hy, hxy⟩ := Option.map_eq_some_iff.mp hx
    simp only [Prod.mk.injEq] at hxy
    obtain ⟨h1, h2⟩ := hxy
    have none_iff : ∀ a b : Option Phase, a.isSome = b.isSome → (a = none ↔ b = none) := fun a b e => by
      rw [← Option.not_isSome_iff_eq_none, e, Option.not_isSome_iff_eq_none]
    have e1 := none_iff _ _ h1
    have e2 := none_iff _ _ h2
    rw [hy]
    cases hst : q.state <;> simp_all only [reduceCtorEq, and_self]

theorem Port.Ok.session_none (h : q.Ok full g w)
    (hs : q.state = .idle ∨ q.state = .fault ∨ q.state = .quarantined ∨ q.state = .disabled) : q.session = none := by
  have hl := h.session
  unfold Port.sessionLaw at hl
  rcases hs with e | e | e | e <;> rw [e] at hl <;> exact hl

/-! ### Opening -/

theorem Port.Ok.open (h : q.Ok full g w) (hs : q.state = .idle) : q.open.Ok full g [] := by
  refine Port.ok_of_lit (Or.inl rfl) ⟨rfl, rfl⟩ (by simp [Port.phase, Port.open, Port.newSession]) fun hf => ?_
  exact ((h.granted hf).lit (by rw [hs]; rfl)).congr rfl rfl rfl

/-- P presented with nothing in flight under the base grant. -/
theorem Port.lit_presentP (hon : q.switchOn = true) (hg : g = 500) : (q.present .P).Lit g := by
  refine ⟨hon, fun c hc => ?_, fun r hr => ?_, fun c hc _ => ?_, hg.ge⟩
  · cases hc
    exact hg.ge
  · cases hr
  · cases hc
    exact hg.symm

/-- The port unit as a shed finds it in OCCUPIED: the timers of the phase stopped, the session shed (R66). -/
def Port.shedNow (q : Port) : Port :=
  { q with
    timers := { q.timers with settle := none, identityWait := none, evaluation := none }
    session := q.session.map (·.shedNow) }

theorem State.shedOccupied_eq (s : State) (p : PortId) :
    s.shedOccupied p = if (((s.withdraw p).modPort p Port.shedNow).port p).atOnce .P = true then
        (((s.withdraw p).modPort p Port.shedNow).fallGrant p baseGrant).enterSteady p
      else ((s.withdraw p).modPort p Port.shedNow).representFor p .P .shed := rfl

/-- P presented at rest in the place of a session that heads for P under a shed (R66, R137): the session settles in STEADY or
goes to REPRESENTING, whatever it did before. -/
theorem Sound.shedRest (ho : ∀ r, r ≠ p → (s.port r).Ok full (s.grant r) (s.waits r))
    (hs : (s.port p).state = .occupied) (hx : ∃ x, (s.port p).session = some x ∧ x.held = none)
    (hl : full → (s.port p).Lit (s.grant p)) : Sound full (s.shedOccupied p) := by
  obtain ⟨x, hx, hh⟩ := hx
  have he : Elsewhere p s ((s.withdraw p).modPort p Port.shedNow) := (Elsewhere.withdraw s p).trans (Elsewhere.modPort _ p Port.shedNow)
  have hq : ((s.withdraw p).modPort p Port.shedNow).port p = (s.port p).shedNow := State.port_modPort_same _ _ _
  have hfx : ((s.port p).shedNow).session = some x.shedNow := session_map _ hx
  have hfh : x.shedNow.held = none := x.abandon_keeps.2.1.trans hh
  have hfl : full → ((s.port p).shedNow).Lit (s.grant p) := fun hf => (hl hf).congr rfl rfl rfl
  have hw : ((s.withdraw p).modPort p Port.shedNow).waits p = [] := State.waits_withdraw_same s p
  rw [State.shedOccupied_eq]
  split
  · rename_i hat
    rw [hq] at hat
    rw [State.enterSteady_eq]
    refine Sound.raisePort (Sound.of_others (((he.trans (Elsewhere.fallGrant _ p _)).trans (Elsewhere.modPort _ p _)).ok ho)
      ?_) _
    rw [State.port_modPort_same, State.grant_modPort, State.waits_modPort, State.port_fallGrant, State.grant_fallGrant_same,
      State.waits_fallGrant, hq, hw]
    have hsx : ((s.port p).shedNow).steadied.session = some { x.shedNow.endWalk with phase := some .steady } := session_map _ hfx
    refine Port.ok_of_lit (Or.inl hs) ?_ (by simp [Port.phase, hsx]) fun hf => ?_
    · unfold Port.sessionLaw
      rw [show ((s.port p).shedNow).steadied.state = .occupied from hs, hsx]
      exact ⟨rfl, hfh⟩
    · have hg : baseGrant = s.grant p := (hfl hf).exact _ (Port.atOnce_P.mp hat).2 (Port.atOnce_P.mp hat).1
      rw [hg]
      exact (hfl hf).congr rfl rfl rfl
  · refine Sound.of_others ((he.trans (Elsewhere.modPort _ p _)).ok ho) ?_
    rw [State.representFor, State.port_modPort_same, State.grant_modPort, State.waits_modPort, hq, hw]
    have hk := ((s.port p).shedNow).requestRePresent_keeps .P .shed
    obtain ⟨y, hy, hyh⟩ : ∃ y, (((s.port p).shedNow).requestRePresent .P .shed).session = some y ∧ y.held = none := by
      rcases Port.session_requestRePresent _ .P .shed hfx with e | e
      · exact ⟨_, e, hfh⟩
      · exact ⟨_, e, (Session.follow_keeps none _).2.trans hfh⟩
    have hst : (((s.port p).shedNow).requestRePresent .P .shed).sessionRepresents.state = .occupied := hk.1.trans hs
    have hsx := session_map (fun x => { x with phase := some .representing, target :=
      (((s.port p).shedNow).requestRePresent .P .shed).rePresent.map (·.target) }) hy
    refine Port.ok_of_lit (Or.inl hst) ?_ ?_ fun hf => ?_
    · unfold Port.sessionLaw
      rw [hst, show (((s.port p).shedNow).requestRePresent .P .shed).sessionRepresents.session = _ from hsx]
      exact ⟨rfl, hyh⟩
    · rw [Port.phase_of_session (q := (((s.port p).shedNow).requestRePresent .P .shed).sessionRepresents) hsx]
      simp
    · refine (hfl hf).request (target := .P) (who := .shed) ?_ (Nat.le_refl _) rfl rfl rfl
      rw [Port.turned_P]
      exact (hfl hf).base

theorem Sound.victimRest (h : Sound full s) (hs : (s.port p).state = .occupied) : Sound full (s.victimRest p) := by
  unfold State.victimRest
  split
  · exact h.shedOccupied hs
  · exact h

theorem Sound.openRemovable (h : Sound full s) (hs : (s.port p).state = .idle) : Sound full (s.openRemovable p) := by
  have hw := (h p).waits_nil (by rw [hs]; decide)
  have a : Sound full (s.openSession p) := by
    rw [State.openSession_eq]
    exact (h.put hw Port.open ((h p).open hs)).raisePort _
  refine a.victimRest ?_
  rw [State.openSession_eq, State.port_raisePort, State.port_modPort_same]
  rfl

end Sys2Proof.Machine
end

section
/-! SUPPORT. Hold, POWERING, trips, link recovery, the hub, the end of a re-present and binding between the laws of one
port. -/

namespace Sys2Proof.Machine

variable {full : Prop} {q q' : Port} {g : Nat} {w : List QueueEntry} {s t : State} {p : PortId}

theorem State.modPort_raisePort (s : State) (p r : PortId) (k : Kind) (f : Port → Port) :
    (s.raisePort r k).modPort p f = (s.modPort p f).raisePort r k := rfl

theorem State.modPort_withdraw (s : State) (p r : PortId) (f : Port → Port) :
    (s.withdraw r).modPort p f = (s.modPort p f).withdraw r := rfl

/-! ### Detach, hold and re-attach -/

theorem Port.Free.detach (h : q.Free full g w) : q.detach.Ok full g [] := by
  obtain ⟨x, hx, h1, -⟩ := h.session
  have hsx : q.detach.session = some { x with phase := none, held := x.phase } := session_map _ hx
  refine Port.ok_of_lit (Or.inr (Or.inl rfl)) ?_ (by simp [Port.phase, hsx]) fun hf => ?_
  · unfold Port.sessionLaw
    rw [hsx]
    exact ⟨rfl, h1⟩
  · exact ((h.granted hf).lit (by rw [h.state]; rfl)).congr rfl rfl rfl

theorem Sound.detach (h : Sound full s) (hs : (s.port p).state = .occupied) : Sound full (s.detach p) := by
  have a : Sound full ((s.withdraw p).modPort p Port.detach) := by
    refine Sound.of_others ((Elsewhere.modPort _ p _).ok (h.hand hs).others) ?_
    rw [State.port_modPort_same, State.waits_modPort, State.waits_withdraw_same]
    exact (h.hand hs).free.detach
  unfold State.detach
  dsimp only
  split
  · exact a.afterRelease
  · rename_i hq
    rw [State.withdraw_of_waits ((s.queued_eq_false p).mp (by simpa using hq))] at a
    exact a

/-- A held session back in a phase, the lines as they were (R34, R35). -/
theorem Sound.outOfHold (h : Sound full s) (hs : (s.port p).state = .hold) (f : Port → Port)
    (hst : (f (s.port p)).state = .occupied) (hsw : (f (s.port p)).switchOn = (s.port p).switchOn)
    (hp : (f (s.port p)).presented = (s.port p).presented) (hr : (f (s.port p)).rePresent = (s.port p).rePresent)
    (hy : ∀ x, (s.port p).session = some x →
      ∃ y, (f (s.port p)).session = some y ∧ y.phase.isSome = true ∧ y.phase ≠ some .waitingBudget ∧ y.held = none) :
    Sound full (s.modPort p f) := by
  obtain ⟨x, hx, -⟩ := (h p).session_held hs
  obtain ⟨y, hy, h1, h2, h3⟩ := hy x hx
  refine h.put ((h p).waits_nil (by rw [hs]; decide)) f (Port.ok_of_lit (Or.inl hst) ?_ ?_ fun hf => ?_)
  · unfold Port.sessionLaw
    rw [hst, hy]
    exact ⟨h1, h3⟩
  · rwa [Port.phase_of_session hy]
  · exact (((h p).granted hf).lit (by rw [hs]; rfl)).congr hsw hp hr

theorem Sound.recordVerdict (h : Sound full s) (sig : Sig) (v : Verdict) : Sound full (s.recordVerdict p sig v) := by
  unfold State.recordVerdict
  split
  · exact h
  · rename_i x _
    have a : Sound full (s.modSession p fun y =>
        { y with verdicts := recordIn y.verdicts ⟨sig, v, v.counts && x.boundSlot.isSome⟩ }) :=
      h.modSession _ fun _ => ⟨rfl, rfl, rfl⟩
    dsimp only
    split
    · exact a
    · split
      · exact a.same rfl rfl rfl
      · exact a

/-- The port unit back in OCCUPIED within the hold window (R34, R35). -/
def Port.unheld (q : Port) : Port :=
  { q with
    state := .occupied
    timers := { q.timers with hold := none }
    session := q.session.map fun x => { x with current := none } }

/-- The port unit at a new settle (R34, R35, R153). -/
def Port.resettled (q : Port) : Port :=
  { q with
    timers := { q.timers with settle := some settleTime }
    session := q.session.map fun x => { x with phase := some .settling, held := none, target := none } }

theorem State.unhold_eq (s : State) (p : PortId) : s.unhold p = s.modPort p Port.unheld := rfl
theorem State.resettle_eq (s : State) (p : PortId) : s.resettle p = s.modPort p Port.resettled := rfl

theorem Sound.bounce (h : Sound full s) (sig : Sig) (hs : (s.port p).state = .hold) : Sound full (s.bounce p sig) := by
  have a : Sound full ((s.recordVerdict p sig .rejected).raisePort p .verdict) := (h.recordVerdict sig .rejected).raisePort _
  have ha : (((s.recordVerdict p sig .rejected).raisePort p .verdict).port p).state = .hold := by
    rw [State.port_raisePort, State.port_recordVerdict]
    exact hs
  unfold State.bounce State.modSession
  dsimp only
  rw [State.unhold_eq, State.resettle_eq, State.modPort_modPort, State.modPort_modPort]
  refine Sound.raisePort (a.outOfHold ha _ rfl rfl rfl rfl fun x hx => ?_) _
  exact ⟨_, session_map _ (session_map _ (session_map _ hx)), rfl, by simp, rfl⟩

theorem Sound.reAttach (h : Sound full s) (hs : (s.port p).state = .hold) : Sound full (s.reAttach p) := by
  obtain ⟨x, hx, -⟩ := (h p).session_held hs
  unfold State.reAttach State.modSession
  dsimp only
  rw [State.unhold_eq, State.resettle_eq, State.modPort_raisePort, State.modPort_raisePort, State.modPort_raisePort, State.modPort_modPort,
    State.modPort_modPort, State.modPort_modPort]
  split
  · refine Sound.shedRest (fun r hr => ?_) ?_ ⟨{ { x with current := none } with held := none }, ?_, rfl⟩ fun hf => ?_
    · rw [State.port_raisePort, State.grant_raisePort, State.waits_raisePort]
      exact (Elsewhere.modPort s p _).ok (fun r _ => h r) r hr
    · rw [State.port_raisePort, State.port_modPort_same]
      rfl
    · rw [State.port_raisePort, State.port_modPort_same]
      exact session_map _ (session_map _ hx)
    · rw [State.port_raisePort, State.port_modPort_same]
      exact (((h p).granted hf).lit (by rw [hs]; rfl)).congr rfl rfl rfl
  · split
    · refine Sound.raisePort (h.outOfHold hs _ rfl rfl rfl rfl fun x hx => ?_) _
      exact ⟨_, session_map _ (session_map _ hx), rfl, by simp, rfl⟩
    · refine Sound.raisePort (h.outOfHold hs (fun q => q.unheld.resettled) rfl rfl rfl rfl fun x hx => ?_) _
      exact ⟨_, session_map _ (session_map _ hx), rfl, by simp, rfl⟩

theorem Sound.returnInHold (h : Sound full s) (hs : (s.port p).state = .hold) : Sound full (s.returnInHold p) := by
  unfold State.returnInHold
  split
  · exact h
  · split
    · exact h.bounce _ hs
    · exact h.reAttach hs

theorem Sound.afterFall_base (h : Sound full s) (hat : (s.port p).atOnce .P = true) :
    Sound full (if baseGrant < s.grant p then (s.fallGrant p baseGrant).afterRelease else s) := by
  split
  · exact (h.fallGrant_base hat).afterRelease
  · exact h

theorem Sound.backToP (h : Sound full s) (hs : (s.port p).state = .idle) : Sound full (s.backToP p) := by
  have hn := (h p).session_none (Or.inl hs)
  have hk := (s.port p).requestRePresent_keeps .P .holdExpiry
  have hx : ((s.port p).requestRePresent .P .holdExpiry).session = none := by
    unfold Port.requestRePresent
    split
    · split
      · exact hn
      · simp [Port.startRePresent, Port.goNeutral, hn]
    · exact hn
  unfold State.backToP
  split
  · rename_i hat
    exact h.afterFall_base hat
  · refine h.request (by rw [hs]; rfl) .P .holdExpiry (fun q => q.requestRePresent .P .holdExpiry)
      (fun hf => ((h p).granted hf).base (by rw [hs]; decide)) rfl rfl rfl ?_ ?_ ((h p).waits_nil (by rw [hs]; decide)) ?_ ?_
    · exact Or.inr (Or.inr (hk.1.trans hs))
    · unfold Port.sessionLaw
      rw [hk.1, hs, hx]
    · simp [Port.phase, hx]
    · intro x hx'
      rw [hx] at hx'
      cases hx'

/-- A session ends with what its event does to the port unit: everything else is as it was (R39). -/
theorem Sound.ended (h : Sound full s) (f : Port → Port) (hok : (f (s.port p)).Ok full (s.grant p) []) :
    Sound full (((s.unbindSession p).modPort p f).withdraw p) := by
  have a : Sound full (s.unbindSession p) := by
    rw [State.unbindSession_eq]
    exact h.same rfl rfl rfl
  have hg : (s.unbindSession p).grant p = s.grant p := by
    rw [State.unbindSession_eq]
    rfl
  refine Sound.of_others (((Elsewhere.modPort _ p f).trans (Elsewhere.withdraw _ p)).ok fun r _ => a r) ?_
  rw [State.port_withdraw, State.port_modPort_same, State.waits_withdraw_same, State.grant_withdraw, State.grant_modPort,
    State.port_unbindSession, hg]
  exact hok

theorem Sound.holdEnd (h : Sound full s) (hs : (s.port p).state = .hold) : Sound full (s.holdEnd p) := by
  have e : (s.endSession p).setPortState p .idle
      = ((s.unbindSession p).modPort p fun q => { q.endSession with state := .idle }).withdraw p := by
    rw [State.endSession_eq, State.setPortState, State.modPort_withdraw, State.modPort_modPort]
  have a : Sound full ((s.endSession p).setPortState p .idle) := by
    rw [e]
    refine h.ended _ (Port.ok_of_lit (Or.inr (Or.inr rfl)) rfl (by simp [Port.phase, Port.endSession]) fun hf => ?_)
    exact (((h p).granted hf).lit (by rw [hs]; rfl)).congr rfl rfl rfl
  refine Sound.backToP (Sound.raisePort a _) ?_
  rw [State.port_raisePort, State.port_setPortState_same]

/-! ### Shut-downs -/

theorem Elsewhere.unbind (s : State) (p : PortId) : Elsewhere p s (s.unbindSession p) := fun r _ => by
  rw [State.unbindSession_eq]
  exact ⟨rfl, rfl, rfl⟩

/-- A port shut down into a state without session or lines (R19, R143, R155, R157). -/
theorem Sound.shutDown (h : Sound full s) (mA : Nat) (f : Port → Port)
    (ho : (f (s.port p).shut).state ≠ .occupied) (hh : (f (s.port p).shut).state ≠ .hold)
    (hx : (f (s.port p).shut).session = none) (hp : (f (s.port p).shut).presented = none)
    (hr : (f (s.port p).shut).rePresent = none) (hoff : (f (s.port p).shut).state.isOn = false)
    (hg : (f (s.port p).shut).state ≠ .disabled → mA = 500) : Sound full ((s.shutDown p mA).modPort p f) := by
  rw [State.modPort_shutDown]
  refine Sound.of_others ((((Elsewhere.unbind s p).trans (Elsewhere.modPort _ p _)).trans (Elsewhere.withdraw _ p)).trans
    (Elsewhere.fallGrant _ p mA) |>.ok fun r _ => h r) ?_
  rw [State.port_fallGrant, State.grant_fallGrant_same, State.waits_fallGrant, State.port_withdraw, State.port_modPort_same,
    State.waits_withdraw_same, State.port_unbindSession]
  exact Port.ok_of_dark ho hh hx hp hr (fun e => by rw [hoff] at e; cases e) fun _ => hg

theorem Sound.trip (h : Sound full s) : Sound full (s.trip p) :=
  Sound.afterRelease (Sound.raisePort (h.shutDown baseGrant (fun q =>
    { q with state := .fault, tripCount := q.tripCount + 1, timers := { q.timers with coolDown := some coolDownTime } })
    (by simp) (by simp) rfl rfl rfl rfl fun _ => rfl) _)

theorem Sound.linkQuarantine (h : Sound full s) : Sound full (s.linkQuarantine p) :=
  Sound.afterRelease (Sound.raisePort (h.shutDown baseGrant (fun q => { q with state := .quarantined, quarantine := some .link })
    (by simp) (by simp) rfl rfl rfl rfl fun _ => rfl) _)

theorem Sound.restart (h : Sound full s) : Sound full (s.restart p) :=
  Sound.afterRelease (h.shutDown baseGrant (fun q =>
    { q with
      state := .recovery
      tripCount := 0
      recoveryCount := 0
      quarantine := none
      timers := { q.timers with toggleOff := some (toggleOffTime q.policy.toggleOff) } })
    (by simp) (by simp) rfl rfl rfl rfl fun _ => rfl)

theorem Sound.disable (h : Sound full s) : Sound full (s.disable p) := by
  unfold State.disable State.setEnabled
  rw [State.modPort_modPort]
  exact Sound.afterRelease (h.shutDown 0 _ (by simp) (by simp) rfl rfl rfl rfl fun hd => absurd rfl hd)

theorem Sound.compareReading (h : Sound full s) (mA : Nat) : Sound full (s.compareReading p mA) := by
  unfold State.compareReading
  split
  · split
    · exact h.trip
    · exact h.alike _ ⟨rfl, rfl, rfl, rfl, rfl, rfl⟩
  · exact h.alike _ ⟨rfl, rfl, rfl, rfl, rfl, rfl⟩

theorem Sound.reading (h : Sound full s) (mA : Nat) : Sound full (State.reading p mA s) := by
  have a : Sound full (s.modPort p fun q => q.takeReading mA) := by
    refine h.alike _ ⟨rfl, rfl, rfl, rfl, rfl, ?_⟩
    exact (Port.Alike.mapSession _ (fun x => if x.phase = some .evaluating then
      { x with sum := x.sum + mA, count := x.count + 1 } else x) fun x => by split <;> exact ⟨rfl, rfl, rfl⟩).session
  unfold State.reading
  dsimp only
  split
  · exact a.compareReading mA
  · exact a

/-! ### POWERING -/

/-- A port of POWERING without a session holds the base. -/
theorem Port.Granted.base_of_powering (h : q.Granted g) (hs : q.state = .powering) (hx : q.session = none) : g = 500 :=
  h.exact.2 hx (Or.inl hs)

theorem Port.Ok.powering_lit (h : q.Ok full g w) (hs : q.state = .powering) (hx : q.session = none) (hf : full) :
    (q.present .P).Lit g :=
  Port.lit_presentP ((h.granted hf).on (by rw [hs]; rfl)) ((h.granted hf).base_of_powering hs hx)

theorem Sound.openPowered (h : Sound full s) (hs : (s.port p).state = .powering) (hx : (s.port p).session = none) :
    Sound full ((s.presentP p).openFixed p) := by
  have hw := (h p).waits_nil (by rw [hs]; decide)
  have e : ((s.presentP p).openFixed p) = (s.modPort p fun q => if (q.present .P).open.pins.lok then (q.present .P).open
      else (q.present .P).open.startLink).raisePort p .attach := by
    unfold State.openFixed State.presentP
    rw [State.openSession_eq, State.modPort_modPort, State.modPort_raisePort, State.modPort_modPort]
  have hl : ((s.port p).present .P).open.Ok full (s.grant p) [] := by
    refine Port.ok_of_lit (Or.inl rfl) ⟨rfl, rfl⟩ (by simp [Port.phase, Port.open, Port.newSession]) fun hf => ?_
    exact ((h p).powering_lit hs hx hf).congr rfl rfl rfl
  rw [e]
  refine Sound.raisePort (h.put hw _ ?_) _
  split
  · exact hl
  · exact Port.Alike.ok (q := ((s.port p).present .P).open) ⟨rfl, rfl, rfl, rfl, rfl, rfl⟩ hl

theorem Sound.idlePowered (h : Sound full s) (hs : (s.port p).state = .powering) (hx : (s.port p).session = none) :
    Sound full ((s.presentP p).setPortState p .idle) := by
  have hw := (h p).waits_nil (by rw [hs]; decide)
  have hn : ((s.port p).present .P).session = none := by simp [Port.present, hx]
  have e : (s.presentP p).setPortState p .idle = s.modPort p fun q => { q.present .P with state := .idle } :=
    State.modPort_modPort _ p _ _
  rw [e]
  refine h.put hw _ (Port.ok_of_lit (Or.inr (Or.inr rfl)) hn (by simp [Port.phase, hn]) fun hf => ?_)
  exact ((h p).powering_lit hs hx hf).congr rfl rfl rfl

theorem Sound.resume (h : Sound full s) (hs : (s.port p).state = .powering) {x : Session} (hx : (s.port p).session = some x) :
    Sound full (s.resume p x) := by
  have hl := (h p).session
  unfold Port.sessionLaw at hl
  rw [hs, hx] at hl
  obtain ⟨-, hph, hh⟩ := hl
  obtain ⟨y, hy, hyh⟩ : ∃ y, ((s.port p).requestRePresent (x.presented.getD .P) .resumption).session = some y
      ∧ y.held = none := by
    rcases Port.session_requestRePresent _ (x.presented.getD .P) .resumption hx with e | e
    · exact ⟨_, e, hh⟩
    · exact ⟨_, e, (Session.follow_keeps none _).2.trans hh⟩
  refine h.request (by rw [hs]; rfl) (x.presented.getD .P) .resumption _ (fun hf => ?_) rfl rfl rfl (Or.inl rfl) ?_
    ((h p).waits_nil (by rw [hs]; decide)) ?_ fun z hz => ?_
  · obtain ⟨-, -, -, hc⟩ := ((h p).granted hf).cover
    cases hp : x.presented with
    | none => exact ((h p).granted hf).base (by rw [hs]; decide)
    | some c => exact hc x hx (by simp [Session.suspended, hph, hh]) c hp
  · unfold Port.sessionLaw
    dsimp only
    rw [hy]
    exact ⟨rfl, hyh⟩
  · rw [Port.phase_of_session (session_map _ hy)]
    simp
  · dsimp only at hz
    rw [hy] at hz
    cases hz
    rfl

theorem Sound.modTimers (h : Sound full s) (f : Timers → Timers) : Sound full (s.modTimers p f) :=
  h.alike _ ⟨rfl, rfl, rfl, rfl, rfl, rfl⟩

theorem Sound.powerGoodEnd (h : Sound full s) (hs : (s.port p).state = .powering) : Sound full (s.powerGoodEnd p) := by
  have a : Sound full (s.modTimers p fun x => { x with powerGood := none }) := h.modTimers _
  have hq : (s.modTimers p fun x => { x with powerGood := none }).port p
      = { s.port p with timers := { (s.port p).timers with powerGood := none } } := State.port_modTimers_same _ _ _
  have ha : ((s.modTimers p fun x => { x with powerGood := none }).port p).state = .powering := by rw [hq]; exact hs
  unfold State.powerGoodEnd
  dsimp only
  split
  · cases hx : (s.port p).session with
    | none => exact a.openPowered ha (by rw [hq]; exact hx)
    | some x => exact a.resume ha (by rw [hq]; exact hx)
  · rename_i hf
    have hn : ((s.modTimers p fun x => { x with powerGood := none }).port p).session = none := by
      have hl := (h p).session
      unfold Port.sessionLaw at hl
      rw [hs] at hl
      rw [hq]
      cases hx : (s.port p).session with
      | none => rfl
      | some x =>
        rw [hx] at hl
        exact absurd hl.1 hf
    have b := a.idlePowered ha hn
    split
    · refine b.openRemovable ?_
      rw [State.port_setPortState_same]
    · exact b

theorem Port.Ok.powered (h : q.Ok full g w) (hs : q.state = .fault ∨ q.state = .recovery) : q.powered.Ok full g [] := by
  have hw := h.waits_nil (by rcases hs with e | e <;> rw [e] <;> decide)
  have hl := h.session
  unfold Port.sessionLaw at hl
  have hno : q.session = none ∨ ∃ x, q.session = some x ∧ q.fixed = true ∧ x.phase = none ∧ x.held = none := by
    rcases hs with e | e <;> rw [e] at hl
    · exact Or.inl hl
    · cases hx : q.session with
      | none => exact Or.inl rfl
      | some x =>
        rw [hx] at hl
        exact Or.inr ⟨x, rfl, hl⟩
  refine ⟨?_, by simp, ?_, fun hf => ?_, by simp⟩
  · unfold Port.sessionLaw
    rcases hno with e | ⟨x, e, h1, h2, h3⟩
    · rw [show q.powered.session = none from e]
      exact trivial
    · rw [show q.powered.session = some x from e]
      exact ⟨h1, h2, h3⟩
  · rcases hno with e | ⟨x, e, -, h2, -⟩ <;> simp [Port.phase, Port.powered, e]
    exact h2 ▸ by simp
  · obtain ⟨c1, c2, -, c4⟩ := (h.granted hf).cover
    have hoff := (h.granted hf).off (by rcases hs with e | e <;> rw [e] <;> rfl)
    refine ⟨fun _ => rfl, fun e => (by cases e), ⟨c1, c2, fun _ => hoff, c4⟩, ⟨(h.granted hf).exact.1, fun hn _ => ?_⟩,
      fun _ => (h.granted hf).base (by rcases hs with e | e <;> rw [e] <;> decide)⟩
    refine (h.granted hf).exact.2 hn ?_
    rcases hs with e | e <;> simp [e]

theorem Sound.enterPowering (h : Sound full s) (hs : (s.port p).state = .fault ∨ (s.port p).state = .recovery) :
    Sound full (s.enterPowering p) := by
  have a : Sound full (s.modPort p Port.powered) :=
    h.put ((h p).waits_nil (by rcases hs with e | e <;> rw [e] <;> decide)) _ ((h p).powered hs)
  rw [State.enterPowering_eq]
  split
  · refine a.powerGoodEnd ?_
    rw [State.port_modPort_same]
    rfl
  · exact a

theorem Sound.enable (h : Sound full s) (hs : (s.port p).state = .disabled) : Sound full (s.enable p) := by
  have hx := (h p).session_none (Or.inr (Or.inr (Or.inr hs)))
  have a : Sound full ((s.setGrant p baseGrant).modPort p Port.enabledOn) := by
    refine Sound.of_others (((Elsewhere.setGrant s p _).trans (Elsewhere.modPort _ p _)).ok fun r _ => h r) ?_
    rw [State.port_modPort_same, State.grant_modPort, State.grant_setGrant_same, State.waits_modPort, State.waits_setGrant,
      (h p).waits_nil (by rw [hs]; decide), State.port_setGrant]
    have hn : (s.port p).enabledOn.session = none := hx
    refine ⟨?_, by simp, by simp [Port.phase, hn], fun hf => ?_, by simp⟩
    · unfold Port.sessionLaw
      rw [hn]
      exact trivial
    · obtain ⟨hp, hr⟩ := ((h p).granted hf).off (by rw [hs]; rfl)
      have hd := Port.ok_of_dark (full := True) (q := (s.port p).enabledOn) (g := baseGrant) (by simp [Port.enabledOn])
        (by simp [Port.enabledOn]) hn hp hr (fun _ => rfl) fun _ _ => rfl
      exact hd.granted trivial
  rw [State.enable_eq]
  split
  · refine a.powerGoodEnd ?_
    rw [State.port_modPort_same]
    rfl
  · exact a

theorem Sound.overcurrentQuarantine (h : Sound full s) (hs : (s.port p).state = .fault) :
    Sound full (s.overcurrentQuarantine p) := by
  have hx := (h p).session_none (Or.inr (Or.inl hs))
  have hw := (h p).waits_nil (by rw [hs]; decide)
  refine Sound.raisePort (h.put hw _ ⟨?_, by simp, by simp [Port.phase, hx], fun hf => ?_, by simp⟩) _
  · unfold Port.sessionLaw
    exact hx
  · obtain ⟨hp, hr⟩ := ((h p).granted hf).off (by rw [hs]; rfl)
    refine (Port.ok_of_dark (full := True) (q := { s.port p with state := .quarantined, quarantine := some .overcurrent })
      (by simp) (by simp) hx hp hr (fun e => (by cases e)) fun _ _ => ?_).granted trivial
    exact ((h p).granted hf).exact.2 hx (Or.inr (Or.inr (Or.inl hs)))

end Sys2Proof.Machine
end

section
/-! SUPPORT and PROOFS. Link recovery, the hub, the end of a re-present, binding, and every step between the laws of one port;
the laws of the sessions, the queue and the grants that follow. -/

namespace Sys2Proof.Machine

variable {full : Prop} {q q' : Port} {g : Nat} {w : List QueueEntry} {s t : State} {p : PortId}

/-! ### Link recovery -/

theorem Session.suspend_keeps (c : Option Sig) (x : Session) :
    (x.suspend c).phase = none ∧ (x.suspend c).held = none ∧ (x.suspend c).presented = c := ⟨rfl, rfl, rfl⟩

/-- The letter kept at a suspension is one that the grant covers (R119, R151). -/
theorem Port.Granted.kept (h : q.Granted g) {c : Sig} (hc : q.keptSignature = some c) : c.offered ≤ g := by
  obtain ⟨c1, c2, -, -⟩ := h.cover
  unfold Port.keptSignature at hc
  split at hc
  · rename_i r hr
    exact (c2 r hr).2 c hc
  · exact c1 c hc

theorem Port.Ok.enterRecovery (h : q.Ok full g w) (hs : q.state = .occupied) (hf : q.fixed = true) :
    q.enterRecovery.Ok full g [] := by
  obtain ⟨x, hx, -⟩ := (h.free hs).session
  have hsx : q.enterRecovery.session = some (x.suspend q.keptSignature) := session_map _ hx
  refine ⟨?_, by simp, by simp [Port.phase, hsx, Session.suspend], fun hfull => ?_, by simp⟩
  · unfold Port.sessionLaw
    rw [hsx]
    exact ⟨hf, rfl, rfl⟩
  · refine ⟨fun e => (by cases e), fun _ => ⟨rfl, rfl⟩, ⟨fun c hc => (by cases hc), fun r hr => (by cases hr),
      fun _ => ⟨rfl, rfl⟩, fun y hy _ c hc => ?_⟩, ⟨fun c hc => (by cases hc), fun hn => ?_⟩,
      fun _ => (h.granted hfull).base (by rw [hs]; decide)⟩
    · rw [hsx] at hy
      cases hy
      exact (h.granted hfull).kept hc
    · rw [hsx] at hn
      cases hn

theorem Sound.enterRecovery (h : Sound full s) (hs : (s.port p).state = .occupied) (hf : (s.port p).fixed = true) :
    Sound full (s.enterRecovery p) := by
  have a : Sound full (((s.modPort p Port.enterRecovery).withdraw p).raisePort p .recovery) := by
    refine Sound.raisePort (Sound.of_others (((Elsewhere.modPort s p _).trans (Elsewhere.withdraw _ p)).ok fun r _ => h r) ?_) _
    rw [State.port_withdraw, State.port_modPort_same, State.waits_withdraw_same, State.grant_withdraw, State.grant_modPort]
    exact (h p).enterRecovery hs hf
  have ha : ((((s.modPort p Port.enterRecovery).withdraw p).raisePort p .recovery).port p).state = .recovery := by
    rw [State.port_raisePort, State.port_withdraw, State.port_modPort_same]
    rfl
  have b : Sound full (if s.victim p then (((s.modPort p Port.enterRecovery).withdraw p).raisePort p .recovery).shedSuspended p
      else ((s.modPort p Port.enterRecovery).withdraw p).raisePort p .recovery) := by
    split
    · exact a.shedSuspended (Or.inl ha)
    · exact a
  unfold State.enterRecovery
  dsimp only
  split
  · exact b.afterRelease
  · exact b

theorem Sound.linkEnd (h : Sound full s) (hs : (s.port p).state = .occupied) (hf : (s.port p).fixed = true) :
    Sound full (State.linkEnd p s) := by
  unfold State.linkEnd
  split
  · exact h.enterRecovery hs hf
  · exact h.linkQuarantine

/-! ### The hub -/

theorem Session.hubTaken_keeps (x : Session) :
    x.hubTaken.phase.isSome = x.phase.isSome ∧ x.hubTaken.held.isSome = x.held.isSome
      ∧ x.hubTaken.phase ≠ some .waitingBudget := by
  refine ⟨Option.isSome_map, Option.isSome_map, fun e => ?_⟩
  obtain ⟨a, -, ha⟩ := Option.map_eq_some_iff.mp (show x.phase.map (fun _ => Phase.representing) = some Phase.waitingBudget from e)
  cases ha

/-- What the hub's taking of the lines leaves of the unit, and the session it leaves (R5, R62). -/
theorem Port.hubTakesLines_keeps (q : Port) :
    q.hubTakesLines.state = q.state ∧ q.hubTakesLines.fixed = q.fixed
      ∧ q.hubTakesLines.session.map (fun x => (x.phase.isSome, x.held.isSome))
          = q.session.map fun x => (x.phase.isSome, x.held.isSome) := by
  have hl : q.hubLines.state = q.state ∧ q.hubLines.fixed = q.fixed
      ∧ q.hubLines.session.map (fun x => (x.phase.isSome, x.held.isSome))
          = q.session.map fun x => (x.phase.isSome, x.held.isSome) := by
    unfold Port.hubLines
    split
    · split
      · exact ⟨rfl, rfl, rfl⟩
      · refine ⟨rfl, rfl, ?_⟩
        change (q.session.map _).map _ = _
        rw [Option.map_map]
        congr 1
        funext x
        obtain ⟨h1, h2⟩ := x.follow_keeps none
        simp [h1, h2]
    · exact ⟨rfl, rfl, rfl⟩
  obtain ⟨h1, h2, h3⟩ := hl
  refine ⟨h1, h2, ?_⟩
  change (q.hubLines.session.map _).map _ = _
  rw [Option.map_map, ← h3]
  congr 1
  funext x
  obtain ⟨k1, k2, -⟩ := x.hubTaken_keeps
  simp [k1, k2]

theorem Port.phase_hubTakesLines (q : Port) : q.hubTakesLines.phase ≠ some .waitingBudget := by
  intro h
  obtain ⟨y, hy, hp⟩ := Option.bind_eq_some_iff.mp h
  obtain ⟨x, -, rfl⟩ := Option.map_eq_some_iff.mp (show q.hubLines.session.map Session.hubTaken = some y from hy)
  exact x.hubTaken_keeps.2.2 hp

/-- Lines the hub takes head for P under any grant that covered them (R5). -/
theorem Port.Lit.hubTakesLines (h : q.Lit g) (ht : q.hubTakes = true) : q.hubTakesLines.Lit g := by
  suffices hl : q.hubLines.Lit g from hl.congr rfl rfl rfl
  unfold Port.hubLines
  rw [if_pos ht]
  cases hr : q.rePresent with
  | some r =>
    refine ⟨h.on, h.shown, fun r' hr' => ?_, fun c _ e => (by cases e), h.base⟩
    cases hr'
    exact ⟨h.base, (h.flown r hr).2⟩
  | none =>
    refine ⟨h.on, fun c hc => (by cases hc), fun r' hr' => ?_, fun c hc => (by cases hc), h.base⟩
    cases hr'
    exact ⟨h.base, fun c hc => h.shown c hc⟩

/-- The hub takes lines only where they rest or move. -/
theorem Port.Granted.lit_of_hubTakes (h : q.Granted g) (ht : q.hubTakes = true) : q.state.lit := by
  have dark : q.presented = none → q.rePresent = none → False := fun hp hr => by
    simp [Port.hubTakes, hp, hr] at ht
  cases hs : q.state with
  | occupied => exact Or.inl rfl
  | hold => exact Or.inr (Or.inl rfl)
  | idle => exact Or.inr (Or.inr rfl)
  | powering =>
    obtain ⟨hp, hr⟩ := h.cover.2.2.1 hs
    exact (dark hp hr).elim
  | disabled | fault | recovery | quarantined =>
    obtain ⟨hp, hr⟩ := h.off (by rw [hs]; rfl)
    exact (dark hp hr).elim

theorem Port.Ok.hubTakesLines (h : q.Ok full g w) (ht : q.hubTakes = true) : q.hubTakesLines.Ok full g [] := by
  obtain ⟨h1, h2, h3⟩ := q.hubTakesLines_keeps
  have hl := Port.sessionLaw_congr h.session h1 h2 h3
  refine ⟨hl, by simp, by simp [q.phase_hubTakesLines], fun hf => ?_, by simp⟩
  have hst := (h.granted hf).lit_of_hubTakes ht
  have hst' : q.hubTakesLines.state.lit := by rwa [h1]
  exact (((h.granted hf).lit (PortState.isOn_of_lit hst)).hubTakesLines ht).granted hst' fun x hx =>
    Port.sessionLaw_lit hl hst' hx

theorem Sound.hubRises (h : Sound full s) : Sound full (s.hubRises p) := by
  unfold State.hubRises
  split
  · rename_i ht
    have a : Sound full ((s.withdraw p).modPort p Port.hubTakesLines) := by
      refine Sound.of_others (((Elsewhere.withdraw s p).trans (Elsewhere.modPort _ p _)).ok fun r _ => h r) ?_
      rw [State.port_modPort_same, State.waits_modPort, State.waits_withdraw_same, State.port_withdraw, State.grant_modPort,
        State.grant_withdraw]
      exact (h p).hubTakesLines ht
    dsimp only
    split
    · exact a.afterRelease
    · rename_i hq
      rwa [State.withdraw_of_waits ((s.queued_eq_false p).mp (by simpa using hq))] at a
  · split
    · rename_i hw
      simp only [Port.waitsChargeOnly, Bool.and_eq_true, decide_eq_true_eq] at hw
      exact (h.hand hw.1).afterRelease.recompute
    · exact h

theorem Port.phase_of_any {f : Session → Bool} {ph : Phase}
    (h : (q.session.any fun x => decide (x.phase = some ph) && f x) = true) : q.phase = some ph := by
  cases hx : q.session with
  | none => simp [hx] at h
  | some x =>
    simp only [hx, Option.any_some, Bool.and_eq_true, decide_eq_true_eq] at h
    rw [Port.phase_of_session hx]
    exact h.1

theorem Sound.hubFalls (h : Sound full s) : Sound full (s.hubFalls p) := by
  unfold State.hubFalls
  dsimp only
  split
  · rename_i hc
    simp only [Bool.and_eq_true] at hc
    exact (h.hand_of_phase (Port.phase_of_any hc.2) (by decide)).recompute
  · exact h

/-! ### The end of a re-present -/

theorem Hand.sessionContinues (h : Hand full p s) (r : RePresent) (c : Option TrialStep) :
    Sound full (s.sessionContinues p r c) := by
  unfold State.sessionContinues
  split
  · exact h.sound_enterSteady
  · split
    · exact h.recompute
    · split
      · split
        · exact h.startWindow
        · exact h.steadyOutcome
      · exact h.steadyOutcome

theorem Hand.closeWindow (h : Hand full p s) : Hand full p (s.closeWindow p) := by
  refine h.alike _ ?_
  dsimp only
  split <;> refine ⟨rfl, rfl, rfl, rfl, rfl, ?_⟩ <;>
    exact (Port.Alike.mapSession (s.port p) (fun x => { x with resumePlan := none, resumptionWindow := false })
      fun _ => ⟨rfl, rfl, rfl⟩).session

theorem Hand.resettle (h : Hand full p s) : Sound full (s.resettle p) := by
  have a : Hand full p (s.resettle p) :=
    h.rephase Port.resettled rfl rfl rfl rfl fun _ hx _ => ⟨_, session_map _ hx, rfl, rfl⟩
  refine a.sound ?_
  obtain ⟨x, hx, -⟩ := h.free.session
  rw [State.resettle_eq, State.port_modPort_same, Port.phase_of_session (session_map _ hx)]
  simp

theorem Hand.resumeContinues (h : Hand full p s) (r : RePresent) (x : Session) :
    Sound full (s.resumeContinues p r x) := by
  unfold State.resumeContinues
  dsimp only
  split
  · exact h.closeWindow.sound_enterSteady
  · split
    · exact h.closeWindow.recompute
    · split
      · exact h.closeWindow.resettle
      · exact h.closeWindow.steadyOutcome
      · exact h.closeWindow.recompute
      · exact h.closeWindow.recompute

theorem Sound.awaitTarget (h : Sound full s) : Sound full (s.awaitTarget p) :=
  h.modSession _ fun x => by split <;> exact ⟨rfl, rfl, rfl⟩

theorem Sound.continueHeld (h : Sound full s) (hs : (s.port p).state = .hold) (r : RePresent) (x : Session) :
    Sound full (s.continueHeld p r x) := by
  unfold State.continueHeld
  split
  · exact h.enterSteadyHeld hs
  · split
    · exact h.holdRepresenting hs
    · split
      · split
        · split
          · exact h.holdRepresenting hs
          · exact h.enterSteadyHeld hs
        · exact h.enterSteadyHeld hs
      · exact h

/-- Every letter offers the base at least (R1). -/
theorem Sig.base_le_offered (c : Sig) : 500 ≤ c.offered := Sig.offered_P_le c

/-- Letters presented under exactly their offer. -/
theorem Port.Lit.completeRePresent (h : q.Lit g) (r : RePresent) : (q.completeRePresent r).Lit r.target.offered := by
  refine ⟨h.on, fun c hc => ?_, fun r' hr' => (by cases hr'), fun c hc _ => ?_, Sig.base_le_offered _⟩
  · cases hc
    exact Nat.le_refl _
  · cases hc
    rfl

theorem Port.completeRePresent_session (q : Port) (r : RePresent) :
    (q.completeRePresent r).session.map (fun x => (x.phase, x.held)) = q.session.map fun x => (x.phase, x.held) := by
  change ((q.session.map _).map _).map _ = _
  rw [Option.map_map, Option.map_map]
  congr 1
  funext x
  obtain ⟨h1, h2⟩ := x.follow_keeps (some r.target)
  simp [h1, h2]

theorem Port.phase_completeRePresent (q : Port) (r : RePresent) : (q.completeRePresent r).phase = q.phase := by
  have h := congrArg (Option.bind · Prod.fst) (q.completeRePresent_session r)
  simpa [Port.phase, Option.bind_map, Function.comp_def] using h

/-- A port that has a re-present in flight has lines that move. -/
theorem Port.Granted.lit_of_flight (h : q.Granted g) {r : RePresent} (hr : q.rePresent = some r) : q.state.lit := by
  cases hs : q.state with
  | occupied => exact Or.inl rfl
  | hold => exact Or.inr (Or.inl rfl)
  | idle => exact Or.inr (Or.inr rfl)
  | powering =>
    rw [(h.cover.2.2.1 hs).2] at hr
    cases hr
  | disabled | fault | recovery | quarantined =>
    rw [(h.off (by rw [hs]; rfl)).2] at hr
    cases hr

theorem Port.sessionLaw_completeRePresent (h : q.sessionLaw) (r : RePresent) : (q.completeRePresent r).sessionLaw := by
  refine Port.sessionLaw_congr h rfl rfl ?_
  have e := congrArg (Option.map fun a : Option Phase × Option Phase => (a.1.isSome, a.2.isSome))
    (q.completeRePresent_session r)
  rwa [Option.map_map, Option.map_map] at e

/-- A re-present's end, its target's offer the grant from then on (R12 steps 1 to 3). -/
theorem Port.Ok.completeRePresent (h : q.Ok full g w) {r : RePresent} (hr : q.rePresent = some r) {g' : Nat}
    (hg : full → g' = r.target.offered) (hle : full → g' ≤ g) : (q.completeRePresent r).Ok full g' w := by
  have hl := Port.sessionLaw_completeRePresent h.session r
  refine ⟨hl, h.single, ?_, fun hf => ?_, fun hf e he => lt_of_le_of_lt (hle hf) (h.need hf e he)⟩
  · rw [q.phase_completeRePresent]
    exact h.waits
  · have hst := (h.granted hf).lit_of_flight hr
    rw [hg hf]
    exact (((h.granted hf).lit (PortState.isOn_of_lit hst)).completeRePresent r).granted hst fun x hx =>
      Port.sessionLaw_lit hl hst hx

/-- The target of a re-present in flight lies within the grant (R119). -/
theorem Port.Ok.target_le (h : q.Ok full g w) {r : RePresent} (hr : q.rePresent = some r) (hf : full) :
    r.target.offered ≤ g := ((h.granted hf).cover.2.1 r hr).1

/-- Steps 1 to 3 of a re-present's end. -/
theorem Sound.complete (h : Sound full s) {r : RePresent} (hr : (s.port p).rePresent = some r) :
    Sound full ((s.modPort p fun q => q.completeRePresent r).reportPresented p r.target) := by
  have he := Elsewhere.modPort s p fun q => q.completeRePresent r
  unfold State.reportPresented
  rw [State.grant_modPort]
  split
  · rename_i hlt
    refine Sound.afterRelease (Sound.of_others ((he.trans (Elsewhere.fallGrant _ p _)).ok fun r _ => h r) ?_)
    rw [State.port_fallGrant, State.grant_fallGrant_same, State.waits_fallGrant, State.port_modPort_same]
    exact (h p).completeRePresent hr (fun _ => rfl) fun _ => Nat.le_of_lt hlt
  · rename_i hge
    refine Sound.of_others (he.ok fun r _ => h r) ?_
    rw [State.port_modPort_same, State.grant_modPort]
    refine (h p).completeRePresent hr (fun hf => ?_) fun _ => Nat.le_refl _
    have := (h p).target_le hr hf
    omega

/-- A session in hand whose re-present ends stays in hand. -/
theorem Hand.complete (h : Hand full p s) {r : RePresent} (hr : (s.port p).rePresent = some r) :
    Hand full p ((s.modPort p fun q => q.completeRePresent r).reportPresented p r.target) := by
  have he := Elsewhere.modPort s p fun q => q.completeRePresent r
  obtain ⟨x, hx, h1, h2⟩ := h.free.session
  have free : ∀ g', (full → g' = r.target.offered) → ((s.port p).completeRePresent r).Free full g' (s.waits p) := fun g' hg => by
    obtain ⟨y, hy, hxy⟩ := Option.map_eq_some_iff.mp (((s.port p).completeRePresent_session r).trans
      (congrArg (Option.map fun x : Session => (x.phase, x.held)) hx))
    simp only [Prod.mk.injEq] at hxy
    obtain ⟨hp, hh⟩ := hxy
    refine ⟨h.free.state, h.free.waits, ⟨y, hy, hp ▸ h1, hh.trans h2⟩, fun hf => ?_⟩
    rw [hg hf]
    refine (((h.free.granted hf).lit (by rw [h.free.state]; rfl)).completeRePresent r).granted (Or.inl h.free.state) ?_
    intro z hz
    rw [hy] at hz
    cases hz
    exact Session.not_suspended (Or.inl (hp ▸ h1))
  unfold State.reportPresented
  rw [State.grant_modPort]
  split
  · refine Hand.afterRelease ⟨(he.trans (Elsewhere.fallGrant _ p _)).ok h.others, ?_⟩
    rw [State.port_fallGrant, State.grant_fallGrant_same, State.waits_fallGrant, State.port_modPort_same]
    exact free _ fun _ => rfl
  · rename_i hge
    refine ⟨he.ok h.others, ?_⟩
    rw [State.port_modPort_same, State.grant_modPort]
    refine free _ fun hf => ?_
    have := ((h.free.granted hf).cover.2.1 r hr).1
    omega

/-- The end of a release event leaves a port in HOLD in HOLD. -/
theorem Sound.state_reportPresented (hq : s.queued p = false) (sig : Sig) :
    ((s.reportPresented p sig).port p).state = (s.port p).state := by
  unfold State.reportPresented
  split
  · rw [((s.fallGrant p sig.offered).afterRelease_frame p ?_).1, State.port_fallGrant]
    rw [State.queued, State.queue_fallGrant]
    exact hq
  · rfl

theorem Sound.continueAfter (h : Sound full s) {r : RePresent} (hr : (s.port p).rePresent = some r) :
    Sound full (((s.modPort p fun q => q.completeRePresent r).reportPresented p r.target).continueAfter p r (s.port p)) := by
  have a := h.complete hr
  unfold State.continueAfter
  split
  · exact a
  · rename_i x hx
    split
    · unfold State.continueOccupied
      split
      · rename_i hp
        have b := (h.hand_of_phase ((Port.phase_of_session hx).trans hp) (by decide)).complete hr
        split
        · exact b.resumeContinues r x
        · exact b.sessionContinues r _
      · exact a.awaitTarget
    · rename_i hs
      refine a.continueHeld ?_ r x
      rw [Sound.state_reportPresented ?_, State.port_modPort_same]
      · exact hs
      · rw [State.queued_modPort, State.queued_eq_false]
        exact (h p).waits_nil (by rw [hs]; decide)
    all_goals exact a

theorem Sound.rePresentEnd (h : Sound full s) {r : RePresent} (hr : (s.port p).rePresent = some r) :
    Sound full (s.rePresentEnd p r) := h.continueAfter hr

end Sys2Proof.Machine
end

section
/-! PROOFS. Every command and every step between the laws of one port; the laws of the sessions, the queue and the grants. -/

namespace Sys2Proof.Machine

variable {full : Prop} {s t : State} {p : PortId}

/-! ### Trials and binding -/

theorem Hand.modTimers (h : Hand full p s) (f : Timers → Timers) : Hand full p (s.modTimers p f) :=
  h.alike _ ⟨rfl, rfl, rfl, rfl, rfl, rfl⟩

/-- The port unit as its session waits for an identity (R29). -/
def Port.identified (wait : Nat) (q : Port) : Port :=
  { q with
    timers := { q.timers with identityWait := some (seconds wait) }
    session := q.session.map fun y => { y with phase := some .identifying } }

theorem Hand.settleEnd (h : Hand full p s) : Sound full (s.settleEnd p) := by
  obtain ⟨x, hx, -, hh⟩ := h.free.session
  unfold State.settleEnd
  rw [hx]
  dsimp only
  split
  · exact h.recompute
  · split
    · refine (h.rephase (Port.identified x.policy.identityWait) rfl rfl rfl rfl
        fun y hy hn => ⟨_, session_map _ hy, rfl, hn⟩).sound ?_
      rw [State.port_modPort_same, Port.phase_of_session (session_map _ hx)]
      simp
    · exact h.beginTrials

theorem Hand.retry (h : Hand full p s) : Sound full (s.retry p) :=
  Hand.takeStep (Hand.compute (h.modSession _ fun _ => by exact ⟨rfl, rfl, rfl⟩) true)

theorem Sound.modMemory (h : Sound full s) (f : ProfileMemory → ProfileMemory) : Sound full (s.modMemory f) := h.same rfl rfl rfl

theorem Sound.respond (h : Sound full s) (st : Status) (tag code : Byte) (data : List Byte) :
    Sound full (s.respond st tag code data) := h.same rfl rfl rfl

theorem Sound.foldRequests (h : Sound full s) (n : SlotId) (l : List VerdictEntry) :
    Sound full (l.foldl (fun t v => t.foldRequest n v.sig (v.verdict = .accepted)) s) := by
  induction l generalizing s with
  | nil => exact h
  | cons v l ih => exact ih (h.modMemory _)

theorem Sound.handOver (h : Sound full s) (n : SlotId) (x : Session) : Sound full (s.handOver p n x) := by
  have a : Sound full (s.modSession p fun y =>
      { y with verdicts := y.verdicts.map fun v => if v.handedOver then { v with folded := true } else v }) :=
    h.modSession _ fun _ => ⟨rfl, rfl, rfl⟩
  unfold State.handOver
  dsimp only
  split
  · exact a.foldRequests _ _
  · exact a

theorem Sound.bindRequest (h : Sound full s) (v d r : Half) : Sound full (s.bindRequest v d r) := by
  unfold State.bindRequest
  split
  · exact h.modMemory _
  · split
    · exact h.modMemory _
    · exact (h.modMemory _).raiseDevice _
    · exact h.raiseDevice _

theorem Sound.takeAnswer (h : Sound full s) (x : Session) (a : BindAnswer) : Sound full (s.takeAnswer p x a) := by
  cases a
  · exact Sound.handOver (h.modSession _ fun _ => by exact ⟨rfl, rfl, rfl⟩) _ x
  · exact Sound.handOver (h.modSession _ fun _ => by exact ⟨rfl, rfl, rfl⟩) _ x
  · exact h

theorem Sound.postBinding (h : Sound full s) (x : Session) (i : Identity) : Sound full (s.postBinding p x i) := by
  have a : Sound full (s.setIdentity p i) := h.modSession _ fun _ => ⟨rfl, rfl, rfl⟩
  unfold State.postBinding
  dsimp only
  split
  · exact (a.bindRequest _ _ _).takeAnswer x _
  · unfold State.confirmRequest
    split
    · exact a.modMemory _
    · exact a
  · have b : ∀ n, Sound full ((s.setIdentity p i).unbindForRebind p n) := fun n =>
      Sound.modSession (a.modMemory _) _ fun _ => ⟨rfl, rfl, rfl⟩
    exact (((b _).bindRequest _ _ _).takeAnswer x _).raisePort _

theorem Sound.postActs (h : Sound full s) (calls : Bool) : Sound full (s.postActs p calls) := by
  unfold State.postActs
  split
  · rename_i hc
    simp only [Bool.and_eq_true, decide_eq_true_eq] at hc
    exact ((h.hand_of_phase hc.2 (by decide)).modTimers _).beginTrials
  · split
    · exact h.computationCall
    · exact h

theorem Sound.takeIdentity (h : Sound full s) (x : Session) (i : Identity) : Sound full (s.takeIdentity p x i) :=
  (h.postBinding x i).postActs _

theorem Sound.spendChoice (h : Sound full s) : Sound full s.spendChoice := h.same rfl rfl rfl

theorem Sound.tellPorts (n : Nat) (h : Sound full s) (l : List PortId) : Sound full (State.tellPorts n s l) := by
  induction n generalizing s l with
  | zero => exact h
  | succ n ih =>
    rcases l with _ | ⟨a, _ | ⟨b, l⟩⟩
    · exact h
    · exact h.computationCall
    · simp only [State.tellPorts]
      split
      · exact ih h.spendChoice.computationCall _
      · exact h

theorem Sound.setPin (h : Sound full s) (n : SlotId) (pin : Option Sig) : Sound full (s.setPin n pin) := by
  have a := h.modMemory fun m => (m.modEntry n fun e => { e with pinned := pin }).toFront n
  unfold State.setPin
  dsimp only
  split
  · exact a.tellPorts _ _
  · exact a

/-! ### Resets and the clock -/

/-- Every port DISABLED, with neutral lines and no session, and an empty queue. -/
theorem sound_of_reset (hp : ∀ r, t.port r = Port.reset (s.port r).pins) (hq : t.budget.queue = []) : Sound full t := by
  intro r
  have hw : t.waits r = [] := by
    unfold State.waits
    rw [hq]
    rfl
  rw [hp, hw]
  exact Port.ok_of_dark (by simp [Port.reset]) (by simp [Port.reset]) rfl rfl rfl (fun e => (by cases e))
    fun _ hd => absurd rfl hd

theorem Sound.tick (h : Sound full s) : Sound full s.tick := by
  intro r
  have ha : (s.port r).Alike (s.port r).tick := by
    refine ⟨rfl, rfl, rfl, rfl, ?_, rfl⟩
    change ((s.port r).rePresent.map _).map _ = _
    rw [Option.map_map]
    rfl
  have hw : s.tick.waits r = (s.waits r).map fun e => { e with left := e.left - 1 } := by
    unfold State.waits
    rw [show s.tick.budget.queue = s.budget.queue.map fun e => { e with left := e.left - 1 } from rfl, List.filter_map]
    rfl
  have hok := ha.ok (h r)
  rw [State.port_tick, hw]
  refine ⟨hok.session, ?_, ?_, hok.granted, fun hf e he => ?_⟩
  · rw [List.length_map]
    exact hok.single
  · rw [Ne, List.map_eq_nil_iff]
    exact hok.waits
  · obtain ⟨e', he', rfl⟩ := List.mem_map.mp he
    exact hok.need hf e' he'

/-! ### Host commands -/

theorem Sound.onPort (h : Sound full s) (tag code b : Byte) (f : PortId → State) (hf : ∀ p, Sound full (f p)) :
    Sound full (s.onPort tag code b f) := by
  unfold State.onPort
  split
  · exact h.respond _ _ _ _
  · exact hf _

/-- A command that leaves the ports, the grants and the queue as they are. -/
def SameArbiter (s t : State) : Prop :=
  t.ports = s.ports ∧ t.budget.grants = s.budget.grants ∧ t.budget.queue = s.budget.queue

theorem Sound.sameArbiter (h : Sound full s) (hs : SameArbiter s t) : Sound full t := by
  obtain ⟨h1, h2, h3⟩ := hs
  exact h.same h1 h2 h3

theorem sameArbiter_write (tag : Byte) (e : Entry) (target : Option SlotId) (s : State) :
    SameArbiter s (s.write tag e target) := by
  unfold State.write
  split <;> exact ⟨rfl, rfl, rfl⟩

/-- A host command between the laws of each port (R193). -/
theorem Sound.carryOut (h : Sound full s) (c : Instr) : Sound full (s.carryOut c) := by
  cases c with
  | getInfo tag => exact h.respond _ _ _ _
  | getDeviceStatus tag => exact h.respond _ _ _ _
  | setBudget tag total =>
    change Sound full (s.setBudget tag total)
    unfold State.setBudget
    split
    · exact h.respond _ _ _ _
    · split
      · exact h.respond _ _ _ _
      · split
        · exact (h.applyTotal _).respond _ _ _ _
        · exact (h.startShed _).respond _ _ _ _
  | setGlobals tag a b =>
    change Sound full (s.setGlobals tag a b)
    unfold State.setGlobals
    split
    · exact h.same rfl rfl rfl
    · exact h.respond _ _ _ _
  | getGlobals tag => exact h.respond _ _ _ _
  | resetDevice tag => exact sound_of_reset (s := s) (fun r => s.port_resetBlocks r) rfl
  | setPolicy tag port record =>
    refine h.onPort _ _ _ _ fun p => ?_
    split
    · exact h.respond _ _ _ _
    · split
      · exact h.respond _ _ _ _
      · exact Sound.respond (h.alike _ ⟨rfl, rfl, rfl, rfl, rfl, rfl⟩) _ _ _ _
  | getPolicy tag port => exact h.onPort _ _ _ _ fun p => h.respond _ _ _ _
  | enablePort tag port =>
    refine h.onPort _ _ _ _ fun p => ?_
    split
    · exact h.respond _ _ _ _
    · rename_i hs
      split
      · exact h.respond _ _ _ _
      · split
        · exact h.respond _ _ _ _
        · exact (h.enable (by simpa using hs)).respond _ _ _ _
  | disablePort tag port =>
    refine h.onPort _ _ _ _ fun p => ?_
    split
    · exact h.respond _ _ _ _
    · exact h.disable.respond _ _ _ _
  | getPort tag port => exact h.onPort _ _ _ _ fun p => h.respond _ _ _ _
  | postIdentity tag port v d r =>
    refine h.onPort _ _ _ _ fun p => ?_
    split
    · exact (h.takeIdentity _ _).respond _ _ _ _
    · exact h.respond _ _ _ _
  | retryTrials tag port =>
    refine h.onPort _ _ _ _ fun p => ?_
    split
    · rename_i hs
      exact (h.hand_of_phase hs.2 (by decide)).retry.respond _ _ _ _
    · exact h.respond _ _ _ _
  | resetPort tag port =>
    refine h.onPort _ _ _ _ fun p => ?_
    split
    · exact h.respond _ _ _ _
    · exact h.restart.respond _ _ _ _
  | pmLookup tag v d =>
    change Sound full (s.pmLookup tag v d)
    unfold State.pmLookup
    split <;> exact h.respond _ _ _ _
  | pmRead tag n =>
    change Sound full (s.pmRead tag n)
    unfold State.pmRead
    split
    · exact h.respond _ _ _ _
    · split <;> exact h.respond _ _ _ _
  | pmWrite tag e =>
    change Sound full (s.pmWrite tag e)
    unfold State.pmWrite
    split
    · exact h.sameArbiter (sameArbiter_write _ _ _ _)
    · exact h.respond _ _ _ _
  | pmRetire tag v d =>
    change Sound full (s.pmRetire tag v d)
    unfold State.pmRetire
    split
    · exact h.respond _ _ _ _
    · split
      · exact h.respond _ _ _ _
      · split
        · exact h.respond _ _ _ _
        · exact h.same rfl rfl rfl
  | pmPin tag v d g =>
    change Sound full (s.pmPin tag v d g)
    unfold State.pmPin
    split
    · exact h.respond _ _ _ _
    · split
      · exact h.respond _ _ _ _
      · exact (h.setPin _ _).respond _ _ _ _
  | pmUnpin tag v d =>
    change Sound full (s.pmUnpin tag v d)
    unfold State.pmUnpin
    split
    · exact h.respond _ _ _ _
    · exact (h.setPin _ _).respond _ _ _ _
  | pmClear tag o =>
    change Sound full (s.pmClear tag o)
    unfold State.pmClear
    split
    · exact h.respond _ _ _ _
    · exact h.same rfl rfl rfl
  | pmOrder tag g =>
    change Sound full (s.pmOrder tag g)
    unfold State.pmOrder
    split <;> exact h.respond _ _ _ _
  | readNotices tag => exact h.respond _ _ _ _
  | ackNotices tag g k e =>
    change Sound full (s.ackNotices tag g k e)
    unfold State.ackNotices State.acknowledge
    split
    · exact h.respond _ _ _ _
    · split
      · split
        · exact h.same rfl rfl rfl
        · exact h.respond _ _ _ _
      · exact h.respond _ _ _ _
  | setNoticeMask tag k =>
    change Sound full (s.setNoticeMask tag k)
    unfold State.setNoticeMask
    split
    · exact h.same rfl rfl rfl
    · exact h.respond _ _ _ _
  | _ => exact h

theorem Sound.taking (h : Sound full s) (f : State → State) (hf : Sound full (f s)) : Sound full (s.taking f) := by
  unfold State.taking
  split
  · exact h
  · exact hf

theorem Sound.running (h : Sound full s) (f : State → State) (hf : Sound full (f s)) : Sound full (s.running f) := by
  unfold State.running
  split
  · exact h
  · exact hf

theorem Sound.takeFrame (h : Sound full s) (bytes : List Byte) : Sound full (s.takeFrame bytes) := by
  unfold State.takeFrame
  split
  · exact h
  · split
    · exact h.respond _ _ _ _
    · exact h.carryOut _

/-! ### Events -/

theorem Sound.modPins (h : Sound full s) (f : Pins → Pins) : Sound full (s.modPins p f) :=
  h.alike _ ⟨rfl, rfl, rfl, rfl, rfl, rfl⟩

theorem Sound.attachEdge (h : Sound full s) : Sound full (State.attachEdge p s) := by
  unfold State.attachEdge
  split
  · exact h
  · split
    · rename_i hs
      exact h.openRemovable hs
    · rename_i hs
      exact h.returnInHold hs
    all_goals exact h

theorem Sound.detachEdge (h : Sound full s) : Sound full (State.detachEdge p s) := by
  unfold State.detachEdge
  split
  · rename_i hs
    simp only [Bool.and_eq_true, decide_eq_true_eq] at hs
    exact h.detach hs.2
  · exact h

theorem Sound.linkUp (h : Sound full s) : Sound full (State.linkUp p s) :=
  h.alike _ (by split <;> exact ⟨rfl, rfl, rfl, rfl, rfl, rfl⟩)

theorem Sound.linkDown (h : Sound full s) : Sound full (State.linkDown p s) :=
  h.alike _ (by split <;> exact ⟨rfl, rfl, rfl, rfl, rfl, rfl⟩)

theorem Sound.probeEnters (h : Sound full s) : Sound full (s.modPort p Port.probeEnters) := by
  refine h.alike _ ?_
  unfold Port.probeEnters
  split <;> exact ⟨rfl, rfl, rfl, rfl, rfl, rfl⟩

theorem Sound.probeLeaves (h : Sound full s) : Sound full (s.modPort p Port.probeLeaves) := by
  refine h.alike _ ?_
  unfold Port.probeLeaves
  split <;> exact ⟨rfl, rfl, rfl, rfl, rfl, rfl⟩

theorem Sound.probeHeld (h : Sound full s) : Sound full (s.modPort p Port.probeHeld) := by
  refine h.alike _ ?_
  unfold Port.probeHeld
  split
  · exact ⟨rfl, rfl, rfl, rfl, rfl, (Port.Alike.mapSession (s.port p) (fun x => { x with probeSeen := true })
      fun _ => ⟨rfl, rfl, rfl⟩).session⟩
  · exact ⟨rfl, rfl, rfl, rfl, rfl, rfl⟩

/-- An expiry: its timer stops, then its effect. -/
theorem Sound.expire (h : Sound full s) (left : Option Nat) (stop : Timers → Timers) (f : State → State)
    (hf : ∀ u, Sound full u → Sound full (f u)) : Sound full (s.expire p left stop f) := by
  unfold State.expire
  split
  · exact h
  · exact hf _ (h.modTimers stop)

theorem Sound.windowEnd (h : Sound full s) : Sound full (State.windowEnd p s) := by
  unfold State.windowEnd
  split
  · exact h
  · rename_i x hx
    split
    · rename_i hp _
      exact (h.hand_of_phase ((Port.phase_of_session hx).trans hp) (by decide)).judge _ _
    · exact h

theorem Sound.waitEnd (h : Sound full s) : Sound full (State.waitEnd p s) := by
  unfold State.waitEnd
  split
  · rename_i hq
    have hph := (h p).waits.mp ((s.queued_iff_waits p).mp hq)
    exact (h.hand (Port.sessionLaw_occupied (h p).session hph)).afterRelease.nextStep
  · exact h

theorem Sound.coolDownEnd (h : Sound full s) (hs : (s.port p).state = .fault) : Sound full (State.coolDownEnd p s) := by
  unfold State.coolDownEnd
  split
  · exact h.enterPowering (Or.inl hs)
  · exact h.overcurrentQuarantine hs

theorem exec_host_sound {c : Instr} (hc : (encodeCommand c).isSome = true) (h : Sound full s) (he : exec c s = .next t) :
    Sound full t := by
  rw [exec_host hc] at he
  cases he
  exact h.taking _ (h.carryOut c)

/-- Every command between the laws of each port. -/
theorem Sound.exec (h : Sound full s) (i : Instr) (he : exec i s = .next t) : Sound full t := by
  cases i with
  | failedFrame bytes =>
    cases he
    exact h.taking _ (h.takeFrame bytes)
  | powerOnReset addr =>
    cases he
    exact sound_of_reset (s := s) (fun r => s.port_resetBlocks r) rfl
  | pinReset =>
    cases he
    exact sound_of_reset (s := s) (fun r => s.port_resetBlocks r) rfl
  | pinResetRelease addr =>
    cases he
    exact h.same rfl rfl rfl
  | attnRising p =>
    cases he
    exact (h.modPins _).running _ (h.modPins _).attachEdge
  | attnFalling p =>
    cases he
    exact (h.modPins _).running _ (h.modPins _).detachEdge
  | hennRising p =>
    cases he
    exact (h.modPins _).running _ (h.modPins _).hubRises
  | hennFalling p =>
    cases he
    exact (h.modPins _).running _ (h.modPins _).hubFalls
  | loknRising p =>
    cases he
    exact (h.modPins _).running _ (h.modPins _).linkUp
  | loknFalling p =>
    cases he
    exact (h.modPins _).running _ (h.modPins _).linkDown
  | probeBandEntered p =>
    cases he
    exact (h.modPins _).running _ (h.modPins _).probeEnters
  | probeBandLeft p =>
    cases he
    exact (h.modPins _).running _ (h.modPins _).probeLeaves
  | probeTimerExpiry p =>
    cases he
    exact h.expire _ _ _ fun u hu => hu.probeHeld
  | currentReading p mA =>
    cases he
    exact h.running _ (h.reading _)
  | rePresentTimerExpiry p =>
    change execRePresentTimerExpiry p s = _ at he
    unfold execRePresentTimerExpiry at he
    split at he
    · cases he
      exact h
    · rename_i r hr
      cases he
      exact h.rePresentEnd hr
  | settleExpiry p =>
    cases he
    refine h.expire _ _ _ fun u hu => ?_
    split
    · rename_i hp
      exact (hu.hand_of_phase hp (by decide)).settleEnd
    · exact hu
  | identityWaitExpiry p =>
    cases he
    refine h.expire _ _ _ fun u hu => ?_
    split
    · rename_i hp
      exact (hu.hand_of_phase hp (by decide)).beginTrials
    · exact hu
  | holdExpiry p =>
    cases he
    refine h.expire _ _ _ fun u hu => ?_
    split
    · rename_i hs
      exact hu.holdEnd hs
    · exact hu
  | powerGoodExpiry p =>
    cases he
    refine h.expire _ _ _ fun u hu => ?_
    split
    · rename_i hs
      exact hu.powerGoodEnd hs
    · exact hu
  | evaluationWindowExpiry p =>
    cases he
    exact h.expire _ _ _ fun u hu => hu.windowEnd
  | budgetWaitExpiry p =>
    cases he
    exact h.waitEnd
  | coolDownExpiry p =>
    cases he
    refine h.expire _ _ _ fun u hu => ?_
    split
    · rename_i hs
      exact hu.coolDownEnd hs
    · exact hu
  | toggleOffExpiry p =>
    cases he
    refine h.expire _ _ _ fun u hu => ?_
    split
    · rename_i hs
      exact hu.enterPowering (Or.inr hs)
    · exact hu
  | linkTimerExpiry p =>
    cases he
    refine h.expire _ _ _ fun u hu => ?_
    split
    · rename_i hs
      simp only [Bool.and_eq_true, decide_eq_true_eq] at hs
      exact hu.linkEnd hs.2 hs.1
    · exact hu
  | addressByteReceived b =>
    cases he
    exact h.taking _ ((h.takeFrame _).same rfl rfl rfl)
  | dataByteReceived b =>
    cases he
    exact h.taking _ (h.same rfl rfl rfl)
  | _ => exact exec_host_sound rfl h he

/-- Every step between the laws of each port. -/
theorem Sound.step (h : Sound full s) (he : step s = .next t) : Sound full t := by
  unfold Machine.step at he
  split at he
  · rename_i rest _
    exact Sound.exec (s := { s with pending := rest }) (h.same rfl rfl rfl) _ he
  · unfold State.runClock at he
    split at he
    · cases he
      exact h.tick
    · exact h.exec _ he
    · split at he
      · exact h.spendChoice.exec _ he
      · cases he
        exact h.spendChoice

/-! ### The laws -/

/-- Settles O56: a session moves only as its port's state allows, and a port joins or leaves the queue with its phase. -/
theorem sessionAndQueueLawsAreKept : Obligations.SessionAndQueueLawsAreKept := by
  unfold Obligations.SessionAndQueueLawsAreKept
  exact fun s hs hq t he => (sound_false_iff t).mp (((sound_false_iff s).mpr ⟨hs, hq⟩).step he)

/-- Settles O58: a grant moves together with what its port offers, heads for or keeps. -/
theorem coverLawIsKept : Obligations.CoverLawIsKept := by
  unfold Obligations.CoverLawIsKept
  exact fun s hs hq hg hl hc hn hx t he => ((sound_true hs hq hg hl hc hn hx).step he).laws

end Sys2Proof.Machine
end

section
/-! PROOFS. One step and its command (spec/10 section 10.4), the resets, the settings, and what an event at one port leaves
alone. -/

namespace Sys2Proof.Machine

variable {s t : State} {p : PortId}

/-! ### One step -/

theorem State.freeChoice_mem {α : Type} (s : State) {l : List α} (h : l ≠ []) : ∃ a, a ∈ l ∧ s.freeChoice l = some a := by
  have hi : Config.freePick s.freeCount % l.length < l.length := Nat.mod_lt _ (List.length_pos_iff.mpr h)
  exact ⟨_, List.getElem_mem hi, List.getElem?_eq_getElem hi⟩

/-- Settles O1: the cases of one step by what waits and by how many expiries are due. -/
theorem stepTakesTheFrontCommand : Obligations.StepTakesTheFrontCommand := by
  unfold Obligations.StepTakesTheFrontCommand
  intro s c rest
  refine ⟨fun h => ?waiting, fun h hd => ?oneDue, fun h hd => ?noneDue, fun h hd => ?severalDue⟩
  case waiting => simp only [step, h]
  case oneDue => simp only [step, h, State.runClock, hd]
  case noneDue => simp only [step, h, State.runClock, hd]
  case severalDue =>
    obtain ⟨e, he, hc⟩ := s.freeChoice_mem (l := s.dueEvents) (by rintro e; simp [e] at hd)
    refine ⟨e, he, ?_⟩
    rw [step, h]
    dsimp only
    unfold State.runClock
    split
    · rename_i e0
      simp [e0] at hd
    · rename_i a e1
      simp [e1] at hd
    · rw [hc]

/-! ### The waiting commands -/

@[simp] theorem State.pending_tellPorts (n : Nat) (s : State) (l : List PortId) :
    (State.tellPorts n s l).pending = s.pending := by
  induction n generalizing s l with
  | zero => rfl
  | succ n ih =>
    rcases l with _ | ⟨a, _ | ⟨b, l⟩⟩
    · rfl
    · exact (Acts.refl a s).computationCall.pending
    · simp only [State.tellPorts]
      split
      · rw [ih]
        exact ((Acts.refl _ s.spendChoice).computationCall).pending
      · rfl

@[simp] theorem State.pending_setPin (s : State) (n : SlotId) (pin : Option Sig) : (s.setPin n pin).pending = s.pending := by
  unfold State.setPin
  dsimp only
  split
  · exact State.pending_tellPorts _ _ _
  · rfl

theorem State.pending_shedVictims (s : State) (l : List PortId) : (l.foldl State.shedVictim s).pending = s.pending := by
  induction l generalizing s with
  | nil => rfl
  | cons p l ih => exact (ih _).trans (Acts.refl p s).shedVictim.pending

theorem State.pending_startShed (s : State) (total : Nat) : (s.startShed total).pending = s.pending :=
  (Acts.refl 0 _).afterRelease.pending.trans (State.pending_shedVictims _ _)

theorem State.pending_applyTotal (s : State) (total : Nat) : (s.applyTotal total).pending = s.pending :=
  (Acts.refl 0 _).serveQueue.pending

theorem State.pending_onPort (s : State) (tag code b : Byte) (f : PortId → State) (hf : ∀ p, (f p).pending = s.pending) :
    (s.onPort tag code b f).pending = s.pending := by
  unfold State.onPort
  split
  · rfl
  · exact hf _

/-- No host command touches the waiting commands. -/
theorem State.pending_carryOut (s : State) (c : Instr) : (s.carryOut c).pending = s.pending := by
  cases c with
  | setBudget tag total =>
    change (s.setBudget tag total).pending = _
    unfold State.setBudget
    split
    · rfl
    · split
      · rfl
      · split
        · rw [State.respondWith, State.pending_respond, State.pending_applyTotal]
        · rw [State.respondWith, State.pending_respond, State.pending_startShed]
  | setGlobals tag a b =>
    change (s.setGlobals tag a b).pending = _
    unfold State.setGlobals
    split <;> rfl
  | setPolicy tag port record =>
    change (s.setPolicy tag port record).pending = _
    refine s.pending_onPort tag 0x10 port _ fun p => ?_
    split
    · rfl
    · split
      · rfl
      · rfl
  | getPolicy tag port =>
    change (s.getPolicy tag port).pending = _
    exact s.pending_onPort _ _ _ _ fun p => rfl
  | enablePort tag port =>
    change (s.enablePort tag port).pending = _
    refine s.pending_onPort _ _ _ _ fun p => ?_
    split
    · rfl
    · split
      · rfl
      · split
        · rfl
        · exact (Acts.refl p _).enterPowering.pending
  | disablePort tag port =>
    change (s.disablePort tag port).pending = _
    refine s.pending_onPort _ _ _ _ fun p => ?_
    split
    · rfl
    · exact (Acts.refl p _).afterRelease.pending.trans ((Acts.refl p s).shutDown 0).pending
  | getPort tag port =>
    change (s.getPort tag port).pending = _
    exact s.pending_onPort _ _ _ _ fun p => rfl
  | postIdentity tag port v d r =>
    change (s.postIdentity tag port v d r).pending = _
    refine s.pending_onPort _ _ _ _ fun p => ?_
    split
    · exact ((Acts.refl p s).takeIdentity _ _).pending
    · rfl
  | retryTrials tag port =>
    change (s.retryTrials tag port).pending = _
    refine s.pending_onPort _ _ _ _ fun p => ?_
    split
    · exact (Acts.refl p s).retry.pending
    · rfl
  | resetPort tag port =>
    change (s.resetPort tag port).pending = _
    refine s.pending_onPort _ _ _ _ fun p => ?_
    split
    · rfl
    · exact (Acts.refl p _).afterRelease.pending.trans ((Acts.refl p s).shutDown baseGrant).pending
  | pmLookup tag v d =>
    change (s.pmLookup tag v d).pending = _
    unfold State.pmLookup
    split <;> rfl
  | pmRead tag n =>
    change (s.pmRead tag n).pending = _
    unfold State.pmRead
    split
    · rfl
    · split <;> rfl
  | pmWrite tag e =>
    change (s.pmWrite tag e).pending = _
    unfold State.pmWrite
    split
    · unfold State.write
      split <;> rfl
    · rfl
  | pmRetire tag v d =>
    change (s.pmRetire tag v d).pending = _
    unfold State.pmRetire
    split
    · rfl
    · split
      · rfl
      · split <;> rfl
  | pmPin tag v d g =>
    change (s.pmPin tag v d g).pending = _
    unfold State.pmPin
    split
    · rfl
    · split
      · rfl
      · exact s.pending_setPin _ _
  | pmUnpin tag v d =>
    change (s.pmUnpin tag v d).pending = _
    unfold State.pmUnpin
    split
    · rfl
    · exact s.pending_setPin _ _
  | pmClear tag o =>
    change (s.pmClear tag o).pending = _
    unfold State.pmClear
    split <;> rfl
  | pmOrder tag g =>
    change (s.pmOrder tag g).pending = _
    unfold State.pmOrder
    split <;> rfl
  | ackNotices tag g k e =>
    change (s.ackNotices tag g k e).pending = _
    unfold State.ackNotices State.acknowledge
    split
    · rfl
    · split
      · split <;> rfl
      · rfl
  | setNoticeMask tag k =>
    change (s.setNoticeMask tag k).pending = _
    unfold State.setNoticeMask
    split <;> rfl
  | _ => rfl

theorem State.pending_takeFrame (s : State) (bytes : List Byte) : (s.takeFrame bytes).pending = s.pending := by
  unfold State.takeFrame
  split
  · rfl
  · split
    · rfl
    · exact s.pending_carryOut _

theorem State.pending_taking (s : State) (f : State → State) (hf : (f s).pending = s.pending) :
    (s.taking f).pending = s.pending := by
  unfold State.taking
  split
  · rfl
  · exact hf

/-! ### Events at one port -/

/-- What an event at a port leaves alone (R128, R129). -/
def Local (p : PortId) (s t : State) : Prop :=
  OthersKept p s t ∧ t.host = s.host ∧ (t.port p).policy = (s.port p).policy

theorem Acts.isLocal (h : Acts p s t) : Local p s t := ⟨h.othersKept, h.host, (h.settings p).2⟩

/-- An event first records a pin level or stops a timer of its port. -/
theorem Acts.isLocal_modPort {f : Port → Port} (h : Acts p (s.modPort p f) t)
    (hf : (f (s.port p)).policy = (s.port p).policy) : Local p s t := by
  obtain ⟨a, b, c, d, e, g, k⟩ := h.othersKept
  refine ⟨⟨a, b, c, d, e, fun q hq => ?_, fun q hq hw => ?_⟩, h.host, ?_⟩
  · have := g q hq
    rwa [State.port_modPort_ne _ _ _ _ hq] at this
  · have := k q hq hw
    rwa [State.port_modPort_ne _ _ _ _ hq] at this
  · rw [(h.settings p).2, State.port_modPort_same]
    exact hf

theorem Acts.running {f : State → State} (h : Acts p s t) (hf : Acts p s (f t)) : Acts p s (t.running f) := by
  unfold State.running
  split
  · exact h
  · exact hf

theorem Acts.expire (h : Acts p s t) (left : Option Nat) (stop : Timers → Timers) (f : State → State)
    (hf : ∀ u, Acts p s u → Acts p s (f u)) : Acts p s (t.expire p left stop f) := by
  unfold State.expire
  split
  · exact h
  · exact hf _ (h.modTimers stop)

theorem Acts.attachEdge (h : Acts p s t) : Acts p s (State.attachEdge p t) := by
  unfold State.attachEdge
  split
  · exact h
  · split
    · exact h.openRemovable
    · exact h.returnInHold
    all_goals exact h

theorem Acts.detachEdge (h : Acts p s t) : Acts p s (State.detachEdge p t) := by
  unfold State.detachEdge
  split
  · exact h.detach
  · exact h

theorem Acts.linkUp (h : Acts p s t) : Acts p s (State.linkUp p t) :=
  h.modPort _ fun q => by split <;> exact ⟨rfl, rfl⟩

theorem Acts.linkDown (h : Acts p s t) : Acts p s (State.linkDown p t) :=
  h.modPort _ fun q => by split <;> exact ⟨rfl, rfl⟩

theorem Acts.probeEnters (h : Acts p s t) : Acts p s (t.modPort p Port.probeEnters) :=
  h.modPort _ fun q => by unfold Port.probeEnters; split <;> exact ⟨rfl, rfl⟩

theorem Acts.probeLeaves (h : Acts p s t) : Acts p s (t.modPort p Port.probeLeaves) :=
  h.modPort _ fun q => by unfold Port.probeLeaves; split <;> exact ⟨rfl, rfl⟩

theorem Acts.probeHeld (h : Acts p s t) : Acts p s (t.modPort p Port.probeHeld) :=
  h.modPort _ fun q => by unfold Port.probeHeld; split <;> exact ⟨rfl, rfl⟩

/-- An edge or a probe event: the pin level first, then what the port does. -/
theorem isLocal_edge (f : Pins → Pins) (g : State → State)
    (hg : ∀ u, Acts p (s.modPins p f) u → Acts p (s.modPins p f) (g u)) : Local p s ((s.modPins p f).running g) :=
  Acts.isLocal_modPort (f := fun q => { q with pins := f q.pins })
    ((Acts.refl p (s.modPins p f)).running (hg _ (Acts.refl p _))) rfl

/-- The events of a port (spec/00 section 0.9). -/
def portEvents (p : PortId) (r : Nat) : List Instr :=
  [.attnRising p, .attnFalling p, .hennRising p, .hennFalling p, .loknRising p, .loknFalling p, .probeBandEntered p,
    .probeBandLeft p, .probeTimerExpiry p, .currentReading p r, .rePresentTimerExpiry p, .settleExpiry p,
    .identityWaitExpiry p, .holdExpiry p, .powerGoodExpiry p, .evaluationWindowExpiry p, .budgetWaitExpiry p,
    .coolDownExpiry p, .toggleOffExpiry p, .linkTimerExpiry p]

/-- Every event of a port answers a next state that differs at that port only. -/
theorem portEvents_local (s : State) (p : PortId) (r : Nat) : ∀ c ∈ portEvents p r, ∃ t, exec c s = .next t ∧ Local p s t := by
  have a := Acts.refl p s
  simp only [portEvents, List.forall_mem_cons]
  refine ⟨?attnRising, ?attnFalling, ?hennRising, ?hennFalling, ?loknRising, ?loknFalling, ?probeBandEntered, ?probeBandLeft,
    ?probeTimer, ?reading, ?rePresent, ?settle, ?identityWait, ?hold, ?powerGood, ?window, ?budgetWait, ?coolDown,
    ?toggleOff, ?link, fun _ h => absurd h List.not_mem_nil⟩
  case attnRising => exact ⟨_, rfl, isLocal_edge _ _ fun _ h => h.attachEdge⟩
  case attnFalling => exact ⟨_, rfl, isLocal_edge _ _ fun _ h => h.detachEdge⟩
  case hennRising => exact ⟨_, rfl, isLocal_edge _ _ fun _ h => h.hubRises⟩
  case hennFalling => exact ⟨_, rfl, isLocal_edge _ _ fun _ h => h.hubFalls⟩
  case loknRising => exact ⟨_, rfl, isLocal_edge _ _ fun _ h => h.linkUp⟩
  case loknFalling => exact ⟨_, rfl, isLocal_edge _ _ fun _ h => h.linkDown⟩
  case probeBandEntered => exact ⟨_, rfl, isLocal_edge _ _ fun _ h => h.probeEnters⟩
  case probeBandLeft => exact ⟨_, rfl, isLocal_edge _ _ fun _ h => h.probeLeaves⟩
  case probeTimer => exact ⟨_, rfl, (a.expire _ _ _ fun _ h => h.probeHeld).isLocal⟩
  case reading => exact ⟨_, rfl, (a.running (a.reading _)).isLocal⟩
  case rePresent =>
    change ∃ t, execRePresentTimerExpiry p s = .next t ∧ _
    unfold execRePresentTimerExpiry
    split
    · exact ⟨_, rfl, a.isLocal⟩
    · exact ⟨_, rfl, (a.rePresentEnd _).isLocal⟩
  case settle => exact ⟨_, rfl, (a.expire _ _ _ fun _ h => by split; exacts [h.settleEnd, h]).isLocal⟩
  case identityWait => exact ⟨_, rfl, (a.expire _ _ _ fun _ h => by split; exacts [h.beginTrials, h]).isLocal⟩
  case hold => exact ⟨_, rfl, (a.expire _ _ _ fun _ h => by split; exacts [h.holdEnd, h]).isLocal⟩
  case powerGood => exact ⟨_, rfl, (a.expire _ _ _ fun _ h => by split; exacts [h.powerGoodEnd, h]).isLocal⟩
  case window => exact ⟨_, rfl, (a.expire _ _ _ fun _ h => h.windowEnd).isLocal⟩
  case budgetWait => exact ⟨_, rfl, a.waitEnd.isLocal⟩
  case coolDown => exact ⟨_, rfl, (a.expire _ _ _ fun _ h => by split; exacts [h.coolDownEnd, h]).isLocal⟩
  case toggleOff => exact ⟨_, rfl, (a.expire _ _ _ fun _ h => by split; exacts [h.enterPowering, h]).isLocal⟩
  case link => exact ⟨_, rfl, (a.expire _ _ _ fun _ h => by split; exacts [h.linkEnd, h]).isLocal⟩

/-- Settles O52: each event is a run of operations of its own port. -/
theorem portEventsLeaveTheRestAlone : Obligations.PortEventsLeaveTheRestAlone := by
  unfold Obligations.PortEventsLeaveTheRestAlone
  exact fun s p r c hc => portEvents_local s p r c hc

theorem exec_host_completes {c : Instr} (hc : (encodeCommand c).isSome = true) (s : State) :
    ∃ t, exec c s = .next t ∧ t.pending = s.pending :=
  ⟨_, exec_host hc s, s.pending_taking _ (s.pending_carryOut c)⟩

/-- Settles O2: a host command by its carrying out, an event of a port by what it leaves alone, the rest by computation. -/
theorem everyCommandCompletes : Obligations.EveryCommandCompletes := by
  unfold Obligations.EveryCommandCompletes
  have port : ∀ (s : State) (p : PortId) (r : Nat) (c : Instr), c ∈ portEvents p r →
      ∃ t, exec c s = .next t ∧ t.pending = s.pending := fun s p r c hc => by
    obtain ⟨t, he, hl⟩ := portEvents_local s p r c hc
    exact ⟨t, he, hl.1.1⟩
  intro s c
  cases c with
  | failedFrame bytes => exact ⟨_, rfl, s.pending_taking _ (s.pending_takeFrame bytes)⟩
  | powerOnReset addr => exact ⟨_, rfl, rfl⟩
  | pinReset => exact ⟨_, rfl, rfl⟩
  | pinResetRelease addr => exact ⟨_, rfl, rfl⟩
  | addressByteReceived b => exact ⟨_, rfl, s.pending_taking _ (s.pending_takeFrame _)⟩
  | dataByteReceived b => exact ⟨_, rfl, s.pending_taking _ rfl⟩
  | currentReading p r => exact port s p r _ (by simp [portEvents])
  | attnRising p | attnFalling p | hennRising p | hennFalling p | loknRising p | loknFalling p | probeBandEntered p
  | probeBandLeft p | probeTimerExpiry p | rePresentTimerExpiry p | settleExpiry p | identityWaitExpiry p | holdExpiry p
  | powerGoodExpiry p | evaluationWindowExpiry p | budgetWaitExpiry p | coolDownExpiry p | toggleOffExpiry p
  | linkTimerExpiry p => exact port s p 0 _ (by simp [portEvents])
  | _ => exact exec_host_completes rfl s

end Sys2Proof.Machine
end

section
/-! PROOFS. The resets and the state after reset (R42, R99, R100, R140, R160, R175), the two settings (R172). -/

namespace Sys2Proof.Machine

variable {s t : State} {p : PortId}

/-! ### Resets -/

theorem Port.isReset_reset (pins : Pins) : (Port.reset pins).isReset :=
  ⟨rfl, rfl, rfl, rfl, rfl, rfl, rfl, rfl, rfl, rfl, rfl, rfl, rfl, rfl, rfl⟩

@[simp] theorem State.grant_resetBlocks (s : State) (p : PortId) : s.resetBlocks.grant p = 0 := by
  simp [State.grant, State.resetBlocks, Budget.reset]

@[simp] theorem State.victim_resetBlocks (s : State) (p : PortId) : s.resetBlocks.victim p = false := by
  simp [State.victim, State.resetBlocks, Budget.reset]

@[simp] theorem State.group_resetBlocks (s : State) (g : GroupId) : s.resetBlocks.group g = ⟨0, 0⟩ := by
  simp [State.group, State.resetBlocks, Notices.reset]

/-- A state whose ports, budget and notices a reset set. -/
theorem blocksReset (hp : t.ports = s.resetBlocks.ports) (hb : t.budget = Budget.reset) (hn : t.notices = Notices.reset) :
    BlocksReset s t := by
  have port : ∀ p, t.port p = Port.reset (s.port p).pins := fun p => by
    rw [← State.port_resetBlocks]
    unfold State.port
    rw [hp]
  refine ⟨fun p => ⟨?_, ?_, ?_, ?_⟩, ?_, ?_, ?_, ?_, fun g => ?_, ?_, ?_⟩
  · exact port p ▸ Port.isReset_reset _
  · rw [port p]
    rfl
  · have := s.grant_resetBlocks p
    unfold State.grant at this ⊢
    rw [hb]
    exact this
  · have := s.victim_resetBlocks p
    unfold State.victim at this ⊢
    rw [hb]
    exact this
  · rw [hb]
    rfl
  · rw [hb]
    rfl
  · rw [hb]
    rfl
  · rw [hb]
    rfl
  · have := s.group_resetBlocks g
    unfold State.group at this ⊢
    rw [hn]
    exact this
  · rw [hn]
    rfl
  · rw [hn]
    rfl

theorem memoryKept (hm : t.memory = s.memory.keep) : MemoryKept s t := by
  refine ⟨fun n => ?_, ?_, ?_, ?_⟩
  · unfold State.entry
    rw [hm]
    exact ProfileMemory.entry_keep _ _
  all_goals
    rw [hm]
    rfl

/-- Settles O3: each field by the reset values, and ADDR as sampled. -/
theorem powerOnResetAndRstRelease : Obligations.PowerOnResetAndRstRelease := by
  unfold Obligations.PowerOnResetAndRstRelease
  intro s addr
  exact ⟨⟨_, rfl, blocksReset rfl rfl rfl, fun n => ProfileMemory.entry_reset n, rfl, rfl, rfl, rfl, rfl, rfl, rfl, rfl⟩,
    ⟨_, rfl, rfl, rfl, rfl, rfl, rfl, rfl, rfl, rfl, rfl⟩⟩

/-- Settles O4: each field by the reset values; the Profile Memory keeps its entries without their users. -/
theorem pinResetAndResetDevice : Obligations.PinResetAndResetDevice := by
  unfold Obligations.PinResetAndResetDevice
  intro s tag
  refine ⟨⟨_, rfl, blocksReset rfl rfl rfl, memoryKept rfl, rfl, rfl, rfl, fun acks => State.sent_idle acks rfl, rfl, rfl⟩,
    fun hr => ⟨_, exec_resetDevice tag hr, blocksReset rfl rfl rfl, memoryKept rfl, replied_respond _ _ _ _ _, rfl, hr, rfl⟩⟩

/-! ### The state after reset -/

theorem State.port_reset (p : PortId) : State.reset.port p = Port.reset ⟨false, false, false, false⟩ := by
  simp [State.port, State.reset]

theorem State.entry_reset (n : SlotId) : State.reset.entry n = none := ProfileMemory.entry_reset n

theorem State.grant_reset (p : PortId) : State.reset.grant p = 0 := by
  simp [State.grant, State.reset, Budget.reset]

theorem State.victim_reset (p : PortId) : State.reset.victim p = false := by
  simp [State.victim, State.reset, Budget.reset]

theorem sound_reset (full : Prop) : Sound full State.reset :=
  sound_of_reset (s := State.reset) (fun r => by rw [State.port_reset]; rfl) rfl

theorem blocksReset_reset : BlocksReset State.reset State.reset := by
  refine blocksReset ?_ rfl rfl
  refine Vector.ext fun i hi => ?_
  simp [State.reset, State.resetBlocks, Port.reset]

theorem grantLaw_reset : GrantLaw State.reset := by
  refine ⟨?_, by decide, fun p _ => State.grant_reset p, fun p h => ?_, fun total h => (by cases h)⟩
  · simp only [State.sumGrants, State.grant_reset]
    exact Nat.zero_le _
  · rw [State.port_reset] at h
    exact absurd rfl h

theorem serviceLaw_reset : ServiceLaw State.reset := by
  refine ⟨⟨fun h => (by cases h), fun ⟨p, h⟩ => ?_⟩, fun p h => ?_, fun _ e he => (by cases he)⟩
  all_goals
    rw [State.victim_reset] at h
    cases h

theorem usersLaw_reset : UsersLaw State.reset := by
  refine ⟨fun n e he => ?_, fun p x n hx _ => ?_⟩
  · rw [State.entry_reset] at he
    cases he
  · rw [State.port_reset] at hx
    cases hx

theorem policyLaw_reset : PolicyLaw State.reset :=
  ⟨fun p => by rw [State.port_reset]; exact Port.policyLaw_reset _, by decide, by decide⟩

/-- Settles O5: each law by the reset values of the block it speaks of. -/
theorem resetStateValuesAndLaws : Obligations.ResetStateValuesAndLaws := by
  unfold Obligations.ResetStateValuesAndLaws
  obtain ⟨hs, hq⟩ := (sound_false_iff _).mp (sound_reset False)
  obtain ⟨hc, hn, he⟩ := (sound_reset True).laws
  refine ⟨blocksReset_reset, State.entry_reset, rfl, rfl, rfl, rfl, rfl, rfl, ⟨fun p => ?lines, fun h => (by cases h)⟩,
    fun p => ?probe, noticeLaw_reset, ProfileMemory.law_reset, hs, hq, grantLaw_reset, serviceLaw_reset, hc, hn, he,
    usersLaw_reset, policyLaw_reset⟩
  case lines => exact State.port_reset p ▸ Port.linesLaw_reset _
  case probe => exact State.port_reset p ▸ Port.probeLaw_reset _

/-! ### The two settings -/

/-- Settles O8: the two outcomes of R172. -/
theorem setGlobalsWritesBothSettings : Obligations.SetGlobalsWritesBothSettings := by
  unfold Obligations.SetGlobalsWritesBothSettings
  intro s tag a b hr
  refine ⟨fun hv => ?valid, fun hv => ?invalid⟩
  case valid =>
    refine ⟨_, exec_setGlobals_valid tag hr ((globalsValid_iff a b).mpr hv), rfl, rfl, ?_, rfl, rfl, rfl, rfl, rfl, rfl, rfl,
      rfl, rfl, rfl, rfl⟩
    unfold State.respondWith
    dsimp only
    rw [s.globalsData_writeGlobals a b]
    exact replied_respond _ _ _ _ _
  case invalid =>
    have hf : globalsValid a b = false := Bool.eq_false_iff.mpr fun h => hv ((globalsValid_iff a b).mp h)
    refine answers_of_exec ?_
    rw [exec_setGlobals tag hr, State.setGlobals, hf]
    rfl

end Sys2Proof.Machine
end

section
/-! PROOFS. Frames taken and bytes received at the host port (R186 to R195). -/

namespace Sys2Proof.Machine

variable {s t : State} {p : PortId}

/-! ### Commands and their frames -/

/-- A host command has as many parameters as the code table gives its code (R200). -/
theorem parameterLength_encodeCommand {i : Instr} {c : Byte × Byte × List Byte} (h : encodeCommand i = some c) :
    parameterLength c.2.1 = some c.2.2.length := by
  cases i <;> cases h <;> rfl

theorem parameters_le {i : Instr} {c : Byte × Byte × List Byte} (h : encodeCommand i = some c) : c.2.2.length ≤ 32 := by
  cases i <;> cases h <;> exact Nat.le_of_ble_eq_true rfl

/-- A host command is the row of the code table that its code and parameters name (R200 to R202). -/
theorem commandOf_encodeCommand {i : Instr} {c : Byte × Byte × List Byte} (h : encodeCommand i = some c) :
    commandOf c.1 c.2.1 c.2.2 = some i := by
  cases i with
  | setBudget t v =>
    cases h
    exact congrArg (fun a => some (Instr.setBudget t a)) (halfOf_bytes v)
  | postIdentity t p v d r =>
    cases h
    exact congr (congrArg (fun a b => some (Instr.postIdentity t p a b.1 b.2)) (halfOf_bytes v))
      (congr (congrArg Prod.mk (halfOf_bytes d)) (halfOf_bytes r))
  | pmLookup t v d =>
    cases h
    exact congr (congrArg (fun a b => some (Instr.pmLookup t a b)) (halfOf_bytes v)) (halfOf_bytes d)
  | pmWrite t e =>
    cases h
    exact congr (congrArg (fun a b => some (Instr.pmWrite t { e with vendor := a, product := b.1, release := b.2 }))
      (halfOf_bytes e.vendor)) (congr (congrArg Prod.mk (halfOf_bytes e.product)) (halfOf_bytes e.release))
  | pmRetire t v d =>
    cases h
    exact congr (congrArg (fun a b => some (Instr.pmRetire t a b)) (halfOf_bytes v)) (halfOf_bytes d)
  | pmPin t v d g =>
    cases h
    exact congr (congrArg (fun a b => some (Instr.pmPin t a b g)) (halfOf_bytes v)) (halfOf_bytes d)
  | pmUnpin t v d =>
    cases h
    exact congr (congrArg (fun a b => some (Instr.pmUnpin t a b)) (halfOf_bytes v)) (halfOf_bytes d)
  | ackNotices t g k e =>
    cases h
    exact congrArg (fun a => some (Instr.ackNotices t g a e)) (halfOf_bytes k)
  | setNoticeMask t k =>
    cases h
    exact congrArg (fun a => some (Instr.setNoticeMask t a)) (halfOf_bytes k)
  | _ =>
    cases h <;> rfl

theorem State.takeFrame_ok {bytes : List Byte} {i : Instr} (h : decodeFrame bytes = .ok i) (s : State) :
    s.takeFrame bytes = s.carryOut i := by
  unfold State.takeFrame
  cases bytes with
  | nil => cases h
  | cons b bs => simp only [h]

/-- Settles O33: the frame passes the checks, its bytes name its command, and a frame taken is its command carried out. -/
theorem frameRoundTrip : Obligations.FrameRoundTrip := by
  unfold Obligations.FrameRoundTrip
  intro s i bytes h
  cases hc : encodeCommand i with
  | none => simp [encodeFrame, hc] at h
  | some c =>
    rw [encodeFrame_of_encodeCommand hc] at h
    cases h
    have hd := decodeFrame_whole c.1 c.2.1 c.2.2 i (parameters_le hc) (parameterLength_encodeCommand hc)
      (commandOf_encodeCommand hc)
    refine ⟨hd, ?_⟩
    rw [exec_host (c := i) (by rw [hc]; rfl)]
    exact congrArg (fun f => Host.Outcome.next (s.taking f)) (funext fun u => State.takeFrame_ok hd u)

/-! ### Frames that fail a check -/

theorem echoOf_eq (bytes : List Byte) : echoOf bytes = (bytes.getD 0 0, bytes.getD 1 0) := by
  rcases bytes with _ | ⟨a, _ | ⟨b, l⟩⟩ <;> rfl

theorem exec_failedFrame_error {bytes : List Byte} {st : Status} (hr : s.host.inReset = false) (hb : bytes ≠ [])
    (h : decodeFrame bytes = .error st) :
    exec (.failedFrame bytes) s = .next (s.respond st (bytes.getD 0 0) (bytes.getD 1 0) []) := by
  change Host.Outcome.next (s.taking (State.takeFrame bytes)) = _
  rw [State.taking_running s _ hr]
  unfold State.takeFrame
  cases bytes with
  | nil => exact absurd rfl hb
  | cons b bs =>
    simp only [h, echoOf_eq]
    rfl

theorem decodeFrame_few {bytes : List Byte} (h : bytes.length < 3) : decodeFrame bytes = .error .frameShort := by
  rcases bytes with _ | ⟨a, _ | ⟨b, _ | ⟨c, l⟩⟩⟩
  · rfl
  · rfl
  · rfl
  · simp at h
    omega

section
variable (tag code : Byte) {len : Byte} {rest : List Byte}

theorem decodeFrame_long (h : 32 < len.toNat) : decodeFrame (tag :: code :: len :: rest) = .error .badLength := by
  simp only [decodeFrame, if_pos h]

theorem decodeFrame_short (h : len.toNat ≤ 32) (hr : rest.length < len.toNat + 1) :
    decodeFrame (tag :: code :: len :: rest) = .error .frameShort := by
  simp only [decodeFrame, if_neg (Nat.not_lt.mpr h), if_pos hr]

theorem decodeFrame_badCrc (h : len.toNat ≤ 32) (hr : len.toNat + 1 ≤ rest.length)
    (hc : crc8 (tag :: code :: len :: rest.take len.toNat) ≠ rest.getD len.toNat 0) :
    decodeFrame (tag :: code :: len :: rest) = .error .badCrc := by
  simp only [decodeFrame, if_neg (Nat.not_lt.mpr h), if_neg (Nat.not_lt.mpr hr), if_pos hc]

/-- A frame that passes the checks on its bytes is read by the code table (R191, R200). -/
theorem decodeFrame_checked (h : len.toNat ≤ 32) (hr : len.toNat + 1 ≤ rest.length)
    (hc : crc8 (tag :: code :: len :: rest.take len.toNat) = rest.getD len.toNat 0) :
    (parameterLength code = none → decodeFrame (tag :: code :: len :: rest) = .error .badCode) ∧
    (∀ l, parameterLength code = some l → l ≠ len.toNat →
      decodeFrame (tag :: code :: len :: rest) = .error .badLength) := by
  have hc' : ¬crc8 (tag :: code :: len :: rest.take len.toNat) ≠ rest.getD len.toNat 0 := not_not.mpr hc
  refine ⟨fun hp => ?_, fun l hp hl => ?_⟩
  · simp only [decodeFrame, if_neg (Nat.not_lt.mpr h), if_neg (Nat.not_lt.mpr hr), if_neg hc', hp]
  · simp only [decodeFrame, if_neg (Nat.not_lt.mpr h), if_neg (Nat.not_lt.mpr hr), if_neg hc', hp, if_neg (Ne.symm hl)]

end

/-- Settles O34: the checks of R191 in their order; a frame that fails one only answers. -/
theorem failedFrameWritesItsStatus : Obligations.FailedFrameWritesItsStatus := by
  unfold Obligations.FailedFrameWritesItsStatus
  intro s bytes tag code len rest
  exact ⟨fun hr hb st h => answers_of_exec (exec_failedFrame_error hr hb h), decodeFrame_few,
    decodeFrame_long tag code, decodeFrame_short tag code, decodeFrame_badCrc tag code, decodeFrame_checked tag code⟩

/-! ### Bytes at the host port -/

/-- An address byte takes the frame in assembly and then sets the transaction (R186, R190). -/
theorem exec_addressByte (hr : s.host.inReset = false) (b : Byte) :
    exec (.addressByteReceived b) s = .next (s.addressByte b) :=
  congrArg _ (State.taking_running s _ hr)

theorem exec_dataByte (hr : s.host.inReset = false) (b : Byte) :
    exec (.dataByteReceived b) s = .next { s with host := s.host.dataByte b } :=
  congrArg _ (State.taking_running s _ hr)

/-- With no byte in assembly an address byte changes the host port alone. -/
theorem exec_addressByte_idle (hr : s.host.inReset = false) (b : Byte)
    (hf : (s.host.frame.all fun f => f.bytes.isEmpty) = true) :
    exec (.addressByteReceived b) s = .next { s with host := s.host.addressed b } := by
  have ha : s.host.assembled = [] := by
    unfold HostPort.assembled
    split
    · rfl
    · rename_i f h
      simpa [h] using hf
  rw [exec_addressByte hr, State.addressByte, State.startTaken, ha]
  rfl

theorem HostPort.matchesAddress_iff (h : HostPort) (b : Byte) :
    h.matchesAddress b = true ↔ b.extractLsb' 1 7 = h.address := beq_iff_eq

/-- What an address byte makes of the host port (R186, R189). -/
theorem HostPort.addressed_fields (h : HostPort) (b : Byte) :
    (h.addressed b).response = h.response ∧ (h.addressed b).address = h.address
      ∧ (h.addressed b).ack = (b.extractLsb' 1 7 == h.address) := by
  unfold HostPort.addressed HostPort.matchesAddress
  cases hm : b.extractLsb' 1 7 == h.address
  · exact ⟨rfl, rfl, rfl⟩
  · simp only [if_true]
    split <;> exact ⟨rfl, rfl, rfl⟩

theorem HostPort.addressed_write (h : HostPort) {b : Byte} (hm : b.extractLsb' 1 7 = h.address) (hb : b.getLsbD 0 = false) :
    (h.addressed b).bus = .write ∧ (h.addressed b).frame = some ⟨[], none, false⟩ := by
  unfold HostPort.addressed
  rw [if_pos ((h.matchesAddress_iff b).mpr hm), hb]
  exact ⟨rfl, rfl⟩

theorem HostPort.addressed_read (h : HostPort) {b : Byte} (hm : b.extractLsb' 1 7 = h.address) (hb : b.getLsbD 0 = true) :
    (h.addressed b).bus = .read ∧ (h.addressed b).frame = none := by
  unfold HostPort.addressed
  rw [if_pos ((h.matchesAddress_iff b).mpr hm), hb]
  exact ⟨rfl, rfl⟩

theorem HostPort.addressed_other (h : HostPort) {b : Byte} (hm : b.extractLsb' 1 7 ≠ h.address) :
    (h.addressed b).bus = .notAddressed ∧ (h.addressed b).frame = none := by
  unfold HostPort.addressed
  rw [if_neg fun e => hm ((h.matchesAddress_iff b).mp e)]
  exact ⟨rfl, rfl⟩

section
variable {h : HostPort} {f : Frame}

/-- A data byte within a write is added to the frame (R189). -/
theorem HostPort.dataByte_write (hf : h.frame = some f) (hb : h.bus = .write) (b : Byte) :
    h.dataByte b = { h with ack := f.acks b, frame := some (f.add b) } := by
  unfold HostPort.dataByte
  rw [hf, hb]

theorem HostPort.dataByte_outside (hf : h.frame = none ∨ h.bus ≠ .write) (b : Byte) :
    h.dataByte b = { h with ack := false } := by
  unfold HostPort.dataByte
  split
  · rename_i hw hs
    rcases hf with e | e
    · rw [e] at hs
      cases hs
    · exact absurd hw e
  · rfl

theorem Frame.add_front (hd : f.declared = none) (hl : f.bytes.length < 2) (b : Byte) :
    f.acks b = true ∧ f.add b = { f with bytes := f.bytes ++ [b] } := by
  simp [Frame.acks, Frame.add, hd, hl]

theorem Frame.add_length (hd : f.declared = none) (hl : 2 ≤ f.bytes.length) (b : Byte) :
    f.acks b = decide (b.toNat ≤ 32) ∧ f.add b = ⟨f.bytes ++ [b], some b.toNat, decide (32 < b.toNat)⟩ := by
  simp [Frame.acks, Frame.add, hd, Nat.not_lt.mpr hl]

theorem Frame.add_within {l : Nat} (hd : f.declared = some l) (hl : f.bytes.length < l + 4) (b : Byte) :
    f.acks b = !f.lengthFault ∧ f.add b = { f with bytes := f.bytes ++ [b] } := by
  simp [Frame.acks, Frame.add, hd, hl]

theorem Frame.add_beyond {l : Nat} (hd : f.declared = some l) (hl : l + 4 ≤ f.bytes.length) (b : Byte) :
    f.acks b = false ∧ f.add b = f := by
  simp [Frame.acks, Frame.add, hd, Nat.not_lt.mpr hl]

end

/-- The bytes a read sends: the response in the slot, or the one for an empty slot (R195). -/
theorem State.responseBytes_of (s : State) (o : Option Response) : s.host.response = o → s.responseBytes = (match o with
    | some resp => resp.bytes
    | none => [0x7F, 0x00, 0x00, 0x00, crc8 [0x7F, 0x00, 0x00, 0x00]]) := by
  rintro rfl
  unfold State.responseBytes
  cases s.host.response <;> rfl

/-- Settles O35: an address byte by its match and its direction bit, a data byte by its place in the frame, a read by the
acknowledges. -/
theorem addressAndDataBytesAssembleAFrame : Obligations.AddressAndDataBytesAssembleAFrame := by
  unfold Obligations.AddressAndDataBytesAssembleAFrame
  intro s b acks hr
  refine ⟨fun hf => ?idle, fun f hf hb => ?taken, fun f hf hb => ?added, fun hf => ?outside, fun hf hm hb => ?read,
    fun hb => ?released⟩
  case idle =>
    obtain ⟨h1, h2, h3⟩ := s.host.addressed_fields b
    exact ⟨_, exec_addressByte_idle hr b hf, rfl, rfl, rfl, rfl, rfl, h1, h2, h3, s.host.addressed_write,
      s.host.addressed_read, s.host.addressed_other⟩
  case taken =>
    have ha : s.host.assembled = f.bytes := by
      unfold HostPort.assembled
      rw [hf]
    have he : exec (.failedFrame f.bytes) s = .next (s.takeFrame f.bytes) := congrArg _ (State.taking_running s _ hr)
    refine ⟨_, exec_addressByte hr b, _, he, ?_⟩
    rw [State.addressByte, State.startTaken, ha]
    exact ⟨rfl, rfl, rfl, rfl, rfl, ((s.takeFrame f.bytes).host.addressed_fields b).1⟩
  case added =>
    refine ⟨_, exec_dataByte hr b, ?_⟩
    rw [HostPort.dataByte_write hf hb]
    refine ⟨rfl, rfl, rfl, rfl, rfl, rfl, rfl, hb, fun hd hl => ?_, fun hd hl => ?_, fun l hd hl => ?_, fun l hd hl => ?_⟩
    · obtain ⟨h1, h2⟩ := Frame.add_front hd hl b
      exact ⟨h1, congrArg some h2⟩
    · obtain ⟨h1, h2⟩ := Frame.add_length hd hl b
      exact ⟨h1, congrArg some h2⟩
    · obtain ⟨h1, h2⟩ := Frame.add_within hd hl b
      exact ⟨h1, congrArg some h2⟩
    · obtain ⟨h1, h2⟩ := Frame.add_beyond hd hl b
      exact ⟨h1, congrArg some h2⟩
  case outside =>
    exact ⟨_, exec_dataByte hr b, rfl, rfl, rfl, rfl, rfl, HostPort.dataByte_outside hf b⟩
  case read =>
    refine ⟨_, exec_addressByte_idle hr b hf, fun ha => ?_, fun ha => State.sent_released ha⟩
    have hread : (s.host.addressed b).reading = true := by
      simp [HostPort.reading, (s.host.addressed_read hm hb).1, HostPort.inReset_addressed, hr]
    rw [State.sent_reading hread ha]
    exact congrArg (fun l => some (List.getD l acks.length 0xFF)) (State.responseBytes_of _ _ (s.host.addressed_fields b).1)
  case released => exact State.sent_idle acks (by simp [HostPort.reading, hb])

end Sys2Proof.Machine
end

section
/-! PROOFS. What the reading commands report: the device status, a port's policy and a port (R41, R139, R159, R170, R198,
R201, R202). -/

namespace Sys2Proof.Machine

variable {s t : State} {p : PortId}

/-! ### Bytes -/

/-- A number in two bytes is read back (R201). -/
theorem halfOf_byteOf (n : Nat) : halfOf (byteOf (n / 256)) (byteOf n) = BitVec.ofNat 16 n := by
  apply BitVec.eq_of_toNat_eq
  simp only [halfOf, byteOf, BitVec.toNat_append, BitVec.toNat_ofNat, Nat.reducePow]
  rw [Nat.shiftLeft_eq, Nat.mul_comm, ← Nat.two_pow_add_eq_or_of_lt (by omega)]
  omega

theorem length_padded (n : Nat) (l : List Byte) : (padded n l).length = n := by
  simp [padded]

/-- A list cut or filled is the list where it reaches, and 00h beyond. -/
theorem getD_padded {n i : Nat} (h : i < n) (l : List Byte) : (padded n l).getD i 0 = l.getD i 0 := by
  unfold padded
  rw [List.getD_eq_getElem?_getD, List.getElem?_take_of_lt h, List.getD_eq_getElem?_getD, List.getElem?_append]
  split
  · rfl
  · rename_i hi
    rw [List.getElem?_eq_none (l := l) (by omega), List.getElem?_replicate]
    split <;> rfl

theorem padded_of_le {n : Nat} {l : List Byte} (h : l.length ≤ n) : padded n l = l ++ List.replicate (n - l.length) 0 := by
  unfold padded
  rw [List.take_append, List.take_of_length_le h, List.take_replicate, Nat.min_eq_left (Nat.sub_le _ _)]

theorem padded_five (l : List Byte) : padded 5 l = [l.getD 0 0, l.getD 1 0, l.getD 2 0, l.getD 3 0, l.getD 4 0] := by
  refine List.ext_getElem (length_padded 5 l) fun i h _ => ?_
  rw [length_padded] at h
  have e := getD_padded h l
  rw [List.getD_eq_getElem _ _ (by rw [length_padded]; exact h)] at e
  rw [e]
  match i, h with
  | 0, _ => rfl
  | 1, _ => rfl
  | 2, _ => rfl
  | 3, _ => rfl
  | 4, _ => rfl

/-- A byte of a list read through a code. -/
theorem getD_map {α : Type} (l : List α) (f : α → Byte) (i : Nat) :
    (l.map f).getD i 0 = (match l[i]? with
      | none => 0
      | some a => f a) := by
  rw [List.getD_eq_getElem?_getD, List.getElem?_map]
  cases l[i]? <;> rfl

/-- Eight flags in one byte, each at its own bit. -/
theorem getLsbD_flags : ∀ a b c d e f g h : Bool, ∀ i : Fin 8,
    (byteOf (bitAt a 0 + bitAt b 1 + bitAt c 2 + bitAt d 3 + bitAt e 4 + bitAt f 5 + bitAt g 6 + bitAt h 7)).getLsbD i.val
      = ([a, b, c, d, e, f, g, h].getD i.val false) := by
  decide +kernel

/-- A set of ports has bit n for port n (R202). -/
theorem getLsbD_portSet (f : PortId → Bool) (p : PortId) : (portSet f).getLsbD p.val = f p := by
  have e : portSet f = byteOf (bitAt (f 0) 0 + bitAt (f 1) 1 + bitAt (f 2) 2 + bitAt (f 3) 3 + bitAt (f 4) 4
      + bitAt (f 5) 5 + bitAt (f 6) 6 + bitAt (f 7) 7) := by
    simp [portSet, allPorts, List.finRange_succ, Nat.add_assoc]
  rw [e, getLsbD_flags]
  match p with
  | 0 => rfl
  | 1 => rfl
  | 2 => rfl
  | 3 => rfl
  | 4 => rfl
  | 5 => rfl
  | 6 => rfl
  | 7 => rfl

/-! ### Get Device Status -/

theorem exec_getDeviceStatus (tag : Byte) (hr : s.host.inReset = false) :
    exec (.getDeviceStatus tag) s = .next (s.respond .ok tag 0x02 s.deviceStatus) :=
  congrArg _ (State.taking_running s _ hr)

/-- The first eight bytes of a device status: the four currents (R202). -/
def State.statusHead (s : State) : List Byte :=
  [byteOf (s.budget.total / 256), byteOf s.budget.total, byteOf (s.budget.pendingTotal.getD 0 / 256),
    byteOf (s.budget.pendingTotal.getD 0), byteOf (s.sumGrants / 256), byteOf s.sumGrants, byteOf (s.headroom / 256),
    byteOf s.headroom, portSet s.victim, portSet fun p => (s.port p).policy.enabled, byteOf s.budget.queue.length]

/-- The last four bytes of a device status. -/
def State.statusTail (s : State) : List Byte :=
  [byteOf s.budget.waitLimit, byteOf s.memory.entryCount, hiByte s.memory.orderCount, loByte s.memory.orderCount]

theorem State.deviceStatus_eq (s : State) :
    s.deviceStatus = s.statusHead ++ (padded 16 (s.budget.queue.flatMap (·.bytes)) ++ s.statusTail) := by
  have e : currentBytes s.budget.pendingTotal
      = [byteOf (s.budget.pendingTotal.getD 0 / 256), byteOf (s.budget.pendingTotal.getD 0)] := by
    cases s.budget.pendingTotal <;> rfl
  unfold State.deviceStatus
  rw [e]
  simp [twoBytes, halfBytes, State.statusHead, State.statusTail]

theorem State.length_deviceStatus (s : State) : s.deviceStatus.length = 31 := by
  rw [State.deviceStatus_eq, List.length_append, List.length_append, length_padded]
  rfl

theorem State.getD_deviceStatus_head (s : State) {i : Nat} (h : i < 11) :
    s.deviceStatus.getD i 0 = s.statusHead.getD i 0 := by
  rw [State.deviceStatus_eq, List.getD_append _ _ _ _ h]

theorem State.getD_deviceStatus_tail (s : State) (i : Nat) :
    s.deviceStatus.getD (27 + i) 0 = s.statusTail.getD i 0 := by
  have h11 : s.statusHead.length = 11 := rfl
  rw [State.deviceStatus_eq, List.getD_append_right _ _ _ _ (by rw [h11]; omega),
    List.getD_append_right _ _ _ _ (by rw [h11, length_padded]; omega), length_padded, h11]
  congr 1
  omega

/-- Byte `k` of queue entry `i` stands at `2 * i + k` (R202). -/
theorem getD_queueBytes (l : List QueueEntry) (i k : Nat) (hk : k < 2) :
    (l.flatMap (·.bytes)).getD (2 * i + k) 0 = (match l[i]? with
      | none => 0
      | some e => e.bytes.getD k 0) := by
  induction l generalizing i with
  | nil => simp
  | cons e l ih =>
    have he : e.bytes.length = 2 := rfl
    rw [List.flatMap_cons]
    cases i with
    | zero =>
      rw [List.getD_append _ _ _ _ (by omega), Nat.mul_zero, Nat.zero_add]
      rfl
    | succ i =>
      rw [List.getD_append_right _ _ _ _ (by omega), he, show 2 * (i + 1) + k - 2 = 2 * i + k by omega, ih i]
      rfl

theorem State.getD_deviceStatus_queue (s : State) (i : Fin 8) (k : Nat) (hk : k < 2) :
    s.deviceStatus.getD (11 + (2 * i.val + k)) 0 = (match s.budget.queue[i.val]? with
      | none => 0
      | some e => e.bytes.getD k 0) := by
  have hi := i.isLt
  rw [State.deviceStatus_eq, List.getD_append_right _ _ _ _ (Nat.le_add_right 11 _), show s.statusHead.length = 11 from rfl,
    Nat.add_sub_cancel_left, List.getD_append _ _ _ _ (by rw [length_padded]; omega), getD_padded (by omega),
    getD_queueBytes _ _ _ hk]

/-- Settles O7: the bytes by the fields they carry. -/
theorem getDeviceStatusReportsTheArbiter : Obligations.GetDeviceStatusReportsTheArbiter := by
  unfold Obligations.GetDeviceStatusReportsTheArbiter
  intro s tag hr
  obtain ⟨t, hx, hsame, hreply⟩ := answers_of_exec (exec_getDeviceStatus tag hr)
  have head : ∀ i, i < 11 → s.deviceStatus.getD i 0 = s.statusHead.getD i 0 := fun i h => s.getD_deviceStatus_head h
  have first : ∀ i : Fin 8, ∀ k, k < 2 → s.deviceStatus.getD (11 + (2 * i.val + k)) 0
      = (match s.budget.queue[i.val]? with
        | none => 0
        | some e => e.bytes.getD k 0) := s.getD_deviceStatus_queue
  refine ⟨t, hx, hsame, hreply, s.length_deviceStatus, ?total, ?pending, ?sum, ?headroom, fun p => ⟨?victim, ?enabled⟩, ?length,
    fun e he => ?front, fun i => ⟨?entry, ?left⟩, ?waitLimit, ?count, ?order⟩
  case total =>
    rw [head 0 (by decide), head 1 (by decide)]
    exact halfOf_byteOf _
  case pending =>
    rw [head 2 (by decide), head 3 (by decide)]
    exact halfOf_byteOf _
  case sum =>
    rw [head 4 (by decide), head 5 (by decide)]
    exact halfOf_byteOf _
  case headroom =>
    rw [head 6 (by decide), head 7 (by decide)]
    exact halfOf_byteOf _
  case victim =>
    rw [head 8 (by decide)]
    exact getLsbD_portSet _ p
  case enabled =>
    rw [head 9 (by decide)]
    exact getLsbD_portSet (fun p => (s.port p).policy.enabled) p
  case length => exact head 10 (by decide)
  case front =>
    have h0 := first 0 0 (by decide)
    have h1 := first 0 1 (by decide)
    rw [show s.budget.queue[(0 : Fin 8).val]? = some e from (List.head?_eq_getElem?.symm.trans he)] at h0 h1
    exact ⟨h0, h1⟩
  case entry =>
    rw [show 11 + 2 * i.val = 11 + (2 * i.val + 0) from rfl, first i 0 (by decide)]
    cases s.budget.queue[i.val]? <;> rfl
  case left =>
    rw [show 12 + 2 * i.val = 11 + (2 * i.val + 1) by omega, first i 1 (by decide)]
    cases s.budget.queue[i.val]? <;> rfl
  case waitLimit => exact s.getD_deviceStatus_tail 0
  case count => exact s.getD_deviceStatus_tail 1
  case order =>
    rw [s.getD_deviceStatus_tail 2, s.getD_deviceStatus_tail 3]
    exact halfOf_bytes _

/-! ### Get Policy -/

theorem exec_getPolicy (tag : Byte) (hr : s.host.inReset = false) (p : PortId) :
    exec (.getPolicy tag (BitVec.ofNat 8 p.val)) s = .next (s.respond .ok tag 0x11 (s.policyData p)) := by
  change Host.Outcome.next (s.taking (State.getPolicy tag (BitVec.ofNat 8 p.val))) = _
  rw [State.taking_running s _ hr, State.getPolicy, State.onPort_code]

/-- The code of a run of signatures, by position. -/
theorem getD_sigCodes (l : List Sig) (i : Nat) :
    (l.map fun s => sigCode (some s)).getD i 0 = (match l[i]? with
      | none => 0
      | some g => BitVec.ofNat 8 g.rank) := by
  rw [getD_map]
  cases l[i]? <;> rfl

theorem State.policyData_eq (s : State) (p : PortId) : s.policyData p =
    [BitVec.ofNat 8 p.val, yesNo (s.port p).policy.enabled, yesNo (s.port p).policy.fixedDevice,
      yesNo (s.port p).policy.upgradeOnRelease, BitVec.ofNat 8 (s.port p).policy.priority,
      BitVec.ofNat 8 (s.port p).policy.trialList.length]
    ++ (padded 5 ((s.port p).policy.trialList.map fun g => sigCode (some g))
    ++ ([BitVec.ofNat 8 (s.port p).policy.maxSig.rank, BitVec.ofNat 8 (s.port p).policy.evaluationWindow,
      BitVec.ofNat 8 (s.port p).policy.holdCode, BitVec.ofNat 8 (s.port p).policy.identityWait,
      BitVec.ofNat 8 (s.port p).policy.powerGood, BitVec.ofNat 8 (s.port p).policy.linkTimeout,
      BitVec.ofNat 8 (s.port p).policy.toggleOff, BitVec.ofNat 8 (s.port p).policy.recoveryLimit,
      BitVec.ofNat 8 (s.port p).policy.faultRetries] ++ sessionPolicyLayout (s.port p).session)) := by
  simp [State.policyData, Policy.layout, byteOf, sigCode]

theorem length_sessionPolicyLayout (o : Option Session) : (sessionPolicyLayout o).length = 9 := by
  cases o with
  | none => rfl
  | some x => simp [sessionPolicyLayout, length_padded]

theorem trialListValid_length {l : List Sig} {m : Sig} (h : trialListValid l m = true) : l.length ≤ 5 := by
  simp only [trialListValid, Bool.and_eq_true, decide_eq_true_eq] at h
  exact h.1.1.2

/-- Settles O10: the response by the record and the session policy; a trial list of the law fits its five bytes. -/
theorem getPolicyReturnsTheRecord : Obligations.GetPolicyReturnsTheRecord := by
  unfold Obligations.GetPolicyReturnsTheRecord
  intro s tag p hr hp
  obtain ⟨t, hx, hsame, hreply⟩ := answers_of_exec (exec_getPolicy tag hr p)
  have hlen : (s.port p).policy.trialList.length ≤ 5 := trialListValid_length (hp.1 p).1.2.1
  have h20 : (s.policyData p).drop 20 = sessionPolicyLayout (s.port p).session := by
    rw [State.policyData_eq, padded_five]
    rfl
  have d20 : ∀ i, (s.policyData p).getD (20 + i) 0 = (sessionPolicyLayout (s.port p).session).getD i 0 := fun i => by
    rw [← h20, List.getD_eq_getElem?_getD, List.getD_eq_getElem?_getD, List.getElem?_drop]
  refine ⟨t, hx, hsame, hreply, ?length, ?front, ?list, ?rest, fun hn => ?noSession, fun x hs => ?session⟩
  case length =>
    rw [State.policyData_eq, padded_five]
    simp [length_sessionPolicyLayout]
  case front =>
    rw [State.policyData_eq]
    rfl
  case list =>
    have e : ((s.policyData p).drop 6).take 5 = padded 5 ((s.port p).policy.trialList.map fun g => sigCode (some g)) := by
      rw [State.policyData_eq, padded_five]
      rfl
    rw [e, padded_of_le (by rwa [List.length_map]), List.length_map]
    rfl
  case rest =>
    rw [State.policyData_eq, padded_five]
    rfl
  case noSession =>
    rw [h20, hn]
    rfl
  case session =>
    have hl : sessionPolicyLayout (s.port p).session = [1, byteOf x.policy.trialList.length]
        ++ (padded 5 (x.policy.trialList.map fun s => sigCode (some s))
        ++ [sigCode (some x.policy.maxSig), byteOf x.policy.identityWait]) := by
      rw [hs]
      simp [sessionPolicyLayout]
    rw [hl] at d20
    refine ⟨d20 0, d20 1, fun i => ?_, ?_, ?_⟩
    · have hi := i.isLt
      rw [show 22 + i.val = 20 + (2 + i.val) by omega, d20, List.getD_append_right _ _ _ _ (Nat.le_add_right 2 _),
        show (2 + i.val) - [1, byteOf x.policy.trialList.length].length = i.val from Nat.add_sub_cancel_left 2 _,
        List.getD_append _ _ _ _ (by rw [length_padded]; exact hi), getD_padded hi]
      refine (getD_sigCodes _ _).trans ?_
      cases x.policy.trialList[i.val]? <;> rfl
    · rw [d20 7, padded_five]
      rfl
    · rw [d20 8, padded_five]
      rfl

/-! ### Get Port -/

theorem exec_getPort (tag : Byte) (hr : s.host.inReset = false) (p : PortId) :
    exec (.getPort tag (BitVec.ofNat 8 p.val)) s = .next (s.respond .ok tag 0x14 (s.portData p)) := by
  change Host.Outcome.next (s.taking (State.getPort tag (BitVec.ofNat 8 p.val))) = _
  rw [State.taking_running s _ hr, State.getPort, State.onPort_code]

/-- The first 15 bytes of a port's report (R202). -/
def State.portHead (s : State) (p : PortId) : List Byte :=
  [BitVec.ofNat 8 p.val, (s.port p).stateByte, (s.port p).flagByte, byteOf (s.grant p / 256), byteOf (s.grant p),
    sigCode (s.port p).presented, sigCode ((s.port p).rePresent.map (·.target)), (s.port p).detector.code,
    byteOf (16 * (s.port p).tripCount + (s.port p).recoveryCount), hiByte (s.port p).counter, loByte (s.port p).counter,
    byteOf ((s.port p).latest / 256), byteOf (s.port p).latest, byteOf (tripLevel (s.grant p) / 256),
    byteOf (tripLevel (s.grant p))]

/-- The bytes of a session in a port's report; none without one (R202). -/
def sessionBytes : Option Session → List Byte
  | none => []
  | some x => x.layout

theorem State.portData_eq (s : State) (p : PortId) :
    s.portData p = s.portHead p ++ ((s.port p).timerBytes ++ sessionBytes (s.port p).session) := by
  unfold State.portData
  dsimp only
  cases (s.port p).session <;>
    simp [sessionBytes, State.portHead, twoBytes, halfBytes, byteOf]

theorem Port.length_timerBytes (q : Port) : q.timerBytes.length = 2 := by
  unfold Port.timerBytes
  split <;> rfl

/-- The first seven bytes of a session's report: phase, flags, target, resume plan. -/
theorem Session.layout_eq (x : Session) : ∃ i0 i1 i2 i3 i4 i5 m0 m1 : Byte,
    identityBytes x.identity = [i0, i1, i2, i3, i4, i5] ∧ meanBytes x.lastMean = [m0, m1] ∧
    x.layout = [phaseCode x.shownPhase, x.flagByte, sigCode x.target, planCode x.resumePlan, i0, i1, i2, i3, i4, i5,
      slotCode x.boundSlot, (x.verdicts.map (·.byte)).getD 0 0, (x.verdicts.map (·.byte)).getD 1 0,
      (x.verdicts.map (·.byte)).getD 2 0, (x.verdicts.map (·.byte)).getD 3 0, (x.verdicts.map (·.byte)).getD 4 0,
      byteOf (x.sum / 65536), byteOf (x.sum / 256), byteOf x.sum, byteOf (x.count / 256), byteOf x.count, m0, m1] := by
  obtain ⟨i0, i1, i2, i3, i4, i5, hi⟩ : ∃ i0 i1 i2 i3 i4 i5, identityBytes x.identity = [i0, i1, i2, i3, i4, i5] := by
    cases x.identity with
    | none => exact ⟨0, 0, 0, 0, 0, 0, rfl⟩
    | some i => exact ⟨_, _, _, _, _, _, rfl⟩
  obtain ⟨m0, m1, hm⟩ : ∃ m0 m1, meanBytes x.lastMean = [m0, m1] := by
    cases x.lastMean with
    | none => exact ⟨_, _, rfl⟩
    | some n => exact ⟨_, _, rfl⟩
  refine ⟨i0, i1, i2, i3, i4, i5, m0, m1, hi, hm, ?_⟩
  unfold Session.layout
  rw [hi, hm, padded_five]
  rfl

/-- The bytes of a session stand from byte 17 on (R202). -/
theorem State.getD_portData_session (s : State) (p : PortId) (i : Nat) :
    (s.portData p).getD (17 + i) 0 = (sessionBytes (s.port p).session).getD i 0 := by
  rw [State.portData_eq, List.getD_append_right _ _ _ _ (show 15 ≤ 17 + i by omega), show (s.portHead p).length = 15 from rfl,
    List.getD_append_right _ _ _ _ (by rw [Port.length_timerBytes]; omega), Port.length_timerBytes]
  congr 1
  omega

theorem State.drop_portData_session (s : State) (p : PortId) (i : Nat) :
    (s.portData p).drop (17 + i) = (sessionBytes (s.port p).session).drop i := by
  have h : (s.portData p).drop 17 = sessionBytes (s.port p).session := by
    rw [State.portData_eq, ← List.append_assoc, List.drop_append_of_le_length, List.drop_of_length_le, List.nil_append] <;>
      rw [List.length_append, Port.length_timerBytes] <;> rfl
  rw [← List.drop_drop, h]

theorem State.getD_portData_timers (s : State) (p : PortId) (i : Nat) (hi : i < 2) :
    (s.portData p).getD (15 + i) 0 = (s.port p).timerBytes.getD i 0 := by
  rw [State.portData_eq, List.getD_append_right _ _ _ _ (Nat.le_add_right 15 i), show (s.portHead p).length = 15 from rfl,
    Nat.add_sub_cancel_left, List.getD_append _ _ _ _ (by rw [Port.length_timerBytes]; exact hi)]

theorem Session.shownPhase_eq (x : Session) : x.shownPhase = if x.held.isSome then x.held else x.phase := by
  unfold Session.shownPhase
  cases x.held <;> rfl

/-- Settles O12: the bytes by the fields they carry, the flags bit by bit. -/
theorem getPortReportsThePort : Obligations.GetPortReportsThePort := by
  unfold Obligations.GetPortReportsThePort
  intro s tag p hr
  obtain ⟨t, hx, hsame, hreply⟩ := answers_of_exec (exec_getPort tag hr p)
  have head : ∀ i, i < 15 → (s.portData p).getD i 0 = (s.portHead p).getD i 0 := fun i hi => by
    rw [State.portData_eq, List.getD_append _ _ _ _ hi]
  have flag : ∀ i : Fin 8, (s.port p).flagByte.getLsbD i.val = _ := getLsbD_flags _ _ _ _ _ _ _ _
  have timer := s.getD_portData_timers p
  refine ⟨t, hx, hsame, hreply, ?length, ?front, ?counter, ?latest, ?trip, ?timers, flag 0, flag 1, flag 2, flag 3, flag 4,
    flag 5, flag 7, flag 6, fun x hs => ?session, fun h1 h2 h3 => ?noTimer, fun n h1 h2 h3 => ?link,
    fun n h1 h2 h3 => ?coolDown, fun n h1 h2 h3 => ?toggleOff⟩
  case length =>
    rw [State.portData_eq, List.length_append, List.length_append, Port.length_timerBytes]
    cases (s.port p).session with
    | none => rfl
    | some x =>
      obtain ⟨_, _, _, _, _, _, _, _, -, -, hl⟩ := x.layout_eq
      simp only [sessionBytes, hl]
      rfl
  case front =>
    rw [State.portData_eq]
    rfl
  case counter =>
    rw [head 9 (by decide), head 10 (by decide)]
    exact halfOf_bytes _
  case latest =>
    rw [head 11 (by decide), head 12 (by decide)]
    exact halfOf_byteOf _
  case trip =>
    rw [head 13 (by decide), head 14 (by decide)]
    exact halfOf_byteOf _
  case timers =>
    rw [State.portData_eq, List.drop_append_of_le_length (Nat.le_refl 15), List.drop_of_length_le (Nat.le_refl 15),
      List.nil_append, List.take_append_of_le_length (Nat.le_of_eq (Port.length_timerBytes _).symm),
      List.take_of_length_le (Nat.le_of_eq (Port.length_timerBytes _))]
  case session =>
    obtain ⟨i0, i1, i2, i3, i4, i5, m0, m1, hi, hm, hl⟩ := x.layout_eq
    have hb : sessionBytes (s.port p).session = x.layout := by rw [hs]; rfl
    have byte := s.getD_portData_session p
    have drop := s.drop_portData_session p
    rw [hb, hl] at byte drop
    have sflag : ∀ i : Fin 8, ((s.portData p).getD 18 0).getLsbD i.val = _ := fun i =>
      (congrArg (BitVec.getLsbD · i.val) (byte 1)).trans (getLsbD_flags _ _ _ _ _ _ _ _ i)
    refine ⟨?phase, sflag 0, sflag 1, sflag 2, sflag 3, sflag 4, sflag 5, sflag 6, sflag 7, byte 2, byte 3, fun hn => ?anonymous,
      fun i hn => ?identity, byte 10, fun i => ?verdict, ?sum, ?count, ?mean⟩
    case phase =>
      rw [← Session.shownPhase_eq]
      exact byte 0
    case anonymous =>
      rw [drop 4, ← show [i0, i1, i2, i3, i4, i5] = [0, 0, 0, 0, 0, 0] by rw [← hi, hn]; rfl]
      rfl
    case identity =>
      rw [drop 4, ← show [i0, i1, i2, i3, i4, i5] = [hiByte i.vendor, loByte i.vendor, hiByte i.product, loByte i.product,
        hiByte i.release, loByte i.release] by rw [← hi, hn]; rfl]
      rfl
    case verdict =>
      have hv := getD_map x.verdicts (·.byte) i.val
      refine Eq.trans ?_ (hv.trans ?_)
      · rw [show 28 + i.val = 17 + (11 + i.val) by omega, byte]
        match i with
        | 0 => rfl
        | 1 => rfl
        | 2 => rfl
        | 3 => rfl
        | 4 => rfl
      · cases x.verdicts[i.val]? with
        | none => rfl
        | some w => rfl
    case sum => exact congrArg (List.take 3) (drop 16)
    case count => exact congrArg (List.take 2) (drop 19)
    case mean =>
      refine (congrArg (List.take 2) (drop 21)).trans (Eq.trans hm.symm ?_)
      cases x.lastMean <;> rfl
  case noTimer =>
    have e : (s.port p).timerBytes = [0, 0] := by simp only [Port.timerBytes, h1, h2, h3]
    rw [e] at timer
    exact ⟨timer 0 (by decide), timer 1 (by decide)⟩
  case link =>
    have e : (s.port p).timerBytes = [1, byteOf (hundredMs n)] := by simp only [Port.timerBytes, h1]
    rw [e] at timer
    exact ⟨timer 0 (by decide), timer 1 (by decide)⟩
  case coolDown =>
    have e : (s.port p).timerBytes = [2, byteOf (hundredMs n)] := by simp only [Port.timerBytes, h1, h2]
    rw [e] at timer
    exact ⟨timer 0 (by decide), timer 1 (by decide)⟩
  case toggleOff =>
    have e : (s.port p).timerBytes = [3, byteOf (hundredMs n)] := by simp only [Port.timerBytes, h1, h2, h3]
    rw [e] at timer
    exact ⟨timer 0 (by decide), timer 1 (by decide)⟩

end Sys2Proof.Machine
end

section
/-! PROOFS. The commands that write the Profile Memory (R77, R92 to R94, R97). -/

namespace Sys2Proof.Machine

variable {s t : State} {p : PortId} {m : ProfileMemory}

/-! ### Fold -/

theorem Tallies.get_modify_same (t : Tallies) (f : Tally → Tally) {g : Sig} (h : g ≠ .P) : (t.modify f g).get g = f (t.get g) := by
  cases g
  · exact absurd rfl h
  all_goals rfl

theorem Tallies.get_modify_ne (t : Tallies) (f : Tally → Tally) {g k : Sig} (h : k ≠ g) : (t.modify f g).get k = t.get k := by
  cases g <;> cases k <;> first | rfl | exact absurd rfl h

theorem ProfileMemory.fold_eq {e : Entry} {n : SlotId} (he : m.entry n = some e) (g : Sig) (b : Bool) :
    m.fold n g b = (m.modEntry n fun e => { e with tallies := e.tallies.modify (Tally.fold b) g }).toFront n := by
  unfold ProfileMemory.fold
  rw [if_pos (by simp [he])]

@[simp] theorem ProfileMemory.orderCount_modEntry (m : ProfileMemory) (n : SlotId) (f : Entry → Entry) :
    (m.modEntry n f).orderCount = m.orderCount := rfl

@[simp] theorem ProfileMemory.threshold_modEntry (m : ProfileMemory) (n : SlotId) (f : Entry → Entry) :
    (m.modEntry n f).threshold = m.threshold := rfl

/-- An entry changed in place and moved to the front: the list, and the order count that follows it (R81, R82). -/
theorem ProfileMemory.orderCount_modEntry_toFront (m : ProfileMemory) (n : SlotId) (f : Entry → Entry) :
    ((m.modEntry n f).toFront n).orderCount
      = if ((m.modEntry n f).toFront n).recency = m.recency then m.orderCount else m.orderCount + 1 :=
  ProfileMemory.orderCount_toFront _ _

/-- Settles O24: a fold changes one entry's counts of one signature and moves the entry to the front. -/
theorem foldAddsOneVerdict : Obligations.FoldAddsOneVerdict := by
  unfold Obligations.FoldAddsOneVerdict
  intro m n g accepted hg e he
  have hf := ProfileMemory.fold_eq he g accepted
  refine ⟨⟨{ e with tallies := e.tallies.modify (Tally.fold accepted) g }, ?_, rfl, fun h hh => ?_, ?_, fun hv => ?_⟩,
    fun k hk => ?_, ?_, ?_, ?_⟩
  · rw [hf, ProfileMemory.entry_toFront, ProfileMemory.entry_modEntry_same, he]
    rfl
  · exact Tallies.get_modify_ne _ _ hh
  · refine (Tallies.get_modify_same _ _ hg).trans ?_
    cases accepted
    · by_cases h15 : (e.tallies.get g).rej = 15 <;> simp [Tally.fold, h15]
    · by_cases h15 : (e.tallies.get g).acc = 15 <;> simp [Tally.fold, h15]
  · exact Tallies.valid_modify _ _ _ hv
  · rw [hf, ProfileMemory.entry_toFront, ProfileMemory.entry_modEntry_ne _ _ _ _ hk]
  · rw [hf, ProfileMemory.recency_toFront]
    rfl
  · rw [hf]
    exact ProfileMemory.orderCount_modEntry_toFront _ _ _
  · rw [hf, ProfileMemory.threshold_toFront]
    rfl

/-! ### PM Retire -/

theorem ProfileMemory.inUse_eq {n : SlotId} {e : Entry} (he : m.entry n = some e) : m.inUse n = decide (0 < e.users) := by
  simp [ProfileMemory.inUse, he]

theorem exec_pmRetire (tag : Byte) (hr : s.host.inReset = false) (v d : Half) :
    exec (.pmRetire tag v d) s = .next (s.pmRetire tag v d) :=
  congrArg _ (State.taking_running s _ hr)

/-- Settles O20: the rows of R94. -/
theorem pmRetireVacatesASpareEntry : Obligations.PmRetireVacatesASpareEntry := by
  unfold Obligations.PmRetireVacatesASpareEntry
  intro s tag v d k hr hm
  refine ⟨fun habsent => ?absent, ?held⟩
  case absent =>
    refine answers_of_exec ?_
    rw [exec_pmRetire tag hr, State.pmRetire, ProfileMemory.find_eq_none habsent]
    rfl
  case held =>
    rintro e he rfl rfl
    have hf : s.memory.find e.vendor e.product = some k := ProfileMemory.find_eq hm he
    have hu : s.memory.inUse k = decide (0 < e.users) := ProfileMemory.inUse_eq he
    have base : s.pmRetire tag e.vendor e.product
        = if 0 < e.users then s.refuse .inUse tag 0x23
          else if e.pinned.isSome = true then s.refuse .wrongState tag 0x23
          else (s.modMemory (·.vacate k)).respond .ok tag 0x23 [byteOf k.val] := by
      unfold State.pmRetire
      rw [hf]
      simp [hu, he]
    refine ⟨fun h => ?inUse, fun h hp => ?pinned, fun h hp => ?spare⟩
    case inUse =>
      refine answers_of_exec ?_
      rw [exec_pmRetire tag hr, base, if_pos h]
      rfl
    case pinned =>
      refine answers_of_exec ?_
      rw [exec_pmRetire tag hr, base, if_neg (by omega), if_pos hp]
      rfl
    case spare =>
      refine ⟨(s.modMemory (·.vacate k)).respond .ok tag 0x23 [byteOf k.val], ?_, ?_, fun n hn => ?_, rfl, rfl, rfl, rfl, rfl, rfl, rfl⟩
      · rw [exec_pmRetire tag hr, base, if_neg (by omega), if_neg (by simp [hp])]
      · exact (ProfileMemory.entry_vacate _ _ _).trans (if_pos rfl)
      · exact (ProfileMemory.entry_vacate _ _ _).trans (if_neg hn)

/-! ### PM Write -/

theorem exec_pmWrite (tag : Byte) (hr : s.host.inReset = false) (b : ImportBytes) :
    exec (.pmWrite tag b) s = .next (s.pmWrite tag b) :=
  congrArg _ (State.taking_running s _ hr)

theorem importEntry_fields {b : ImportBytes} {e : Entry} (h : importEntry b = some e) :
    e = { vendor := b.vendor, product := b.product, release := b.release, pinned := e.pinned, tallies := importTallies b,
          users := 0 } := by
  unfold importEntry at h
  split at h
  · cases h
  · split at h
    · cases h
      rfl
    · cases h

/-- A raise of the device group (R177). -/
theorem raised_device (s : State) (k : Kind) :
    RaisedIn s (s.raiseDevice k) 8 k ∧ ∀ g, g ≠ 8 → (s.raiseDevice k).group g = s.group g :=
  ⟨raisedIn_raise s deviceGroup k, fun g hg => State.group_raise_ne s deviceGroup g k hg⟩

theorem ProfileMemory.vacant_eq {k : SlotId} (hk : m.entry k = none) (hlow : ∀ n, n < k → (m.entry n).isSome = true) :
    m.vacant = some k := by
  cases hv : m.vacant with
  | none =>
    have := List.find?_eq_none.mp hv k (List.mem_finRange k)
    simp [hk] at this
  | some n =>
    have hn := ProfileMemory.vacant_some hv
    rcases lt_trichotomy n k with h | h | h
    · have := hlow n h
      simp [hn] at this
    · rw [h]
    · obtain ⟨-, as, bs, hl, hbefore⟩ := List.find?_eq_some_iff_append.mp hv
      have hmem : k ∈ as := by
        have hpw : allSlots.Pairwise (· < ·) := List.pairwise_lt_finRange 48
        have hin : k ∈ allSlots := List.mem_finRange k
        rw [hl] at hpw hin
        rcases List.mem_append.mp hin with e | e
        · exact e
        · rcases List.mem_cons.mp e with e | e
          · exact absurd (e ▸ h) (lt_irrefl _)
          · exact absurd ((List.pairwise_cons.mp (List.pairwise_append.mp hpw).2.1).1 k e) (lt_asymm h)
      have := hbefore k hmem
      simp [hk] at this

theorem ProfileMemory.vacant_eq_none (h : ∀ n, (m.entry n).isSome = true) : m.vacant = none :=
  List.find?_eq_none.mpr fun n _ => by simp [← Option.not_isSome, h n]

/-- An insertion at the tail with its response (R93). -/
theorem State.wrote_insertTail (s : State) (tag : Byte) (k : SlotId) (e : Entry) :
    ((s.modMemory (·.insertTail k e)).wrote tag k).entry k = some e
      ∧ ∀ n, n ≠ k → ((s.modMemory (·.insertTail k e)).wrote tag k).entry n = s.entry n :=
  ⟨(ProfileMemory.entry_insertTail _ _ _ _).trans (if_pos rfl),
    fun _ hn => (ProfileMemory.entry_insertTail _ _ _ _).trans (if_neg hn)⟩

/-! The rows of R93. -/

section
variable {v d : Half} {k : SlotId} {target : Option SlotId}

theorem ProfileMemory.writeCase_elsewhere (hf : m.find v d = some k) {n : SlotId} (hn : n ≠ k) :
    m.writeCase v d (some n) = .duplicate := by
  unfold ProfileMemory.writeCase
  simp [hf, Ne.symm hn]

theorem ProfileMemory.writeCase_here (hf : m.find v d = some k) (ht : target = none ∨ target = some k) :
    m.writeCase v d target = if m.inUse k then .inUse else .replace k := by
  unfold ProfileMemory.writeCase
  rcases ht with rfl | rfl <;> simp [hf]

theorem ProfileMemory.writeCase_target (hf : m.find v d = none) (n : SlotId) :
    m.writeCase v d (some n) = if m.inUse n then .inUse else .insert n := by
  unfold ProfileMemory.writeCase
  simp [hf]

theorem ProfileMemory.writeCase_vacant (hf : m.find v d = none) (hv : m.vacant = some k) :
    m.writeCase v d none = .insert k := by
  unfold ProfileMemory.writeCase ProfileMemory.room
  simp [hf, hv]

theorem ProfileMemory.writeCase_evict (hf : m.find v d = none) (hv : m.vacant = none) (he : m.evictable = some k) :
    m.writeCase v d none = .evict k := by
  unfold ProfileMemory.writeCase ProfileMemory.room
  simp [hf, hv, he]

theorem ProfileMemory.writeCase_full (hf : m.find v d = none) (hv : m.vacant = none) (he : m.evictable = none) :
    m.writeCase v d none = .full := by
  unfold ProfileMemory.writeCase ProfileMemory.room
  simp [hf, hv, he]

end

/-- What a valid PM Write leaves, by its row. -/
def State.writeRow (s : State) (tag : Byte) (e : Entry) : WriteCase → State
  | .duplicate => s.refuse .duplicate tag 0x22
  | .inUse => s.refuse .inUse tag 0x22
  | .replace n => (s.modMemory (·.modEntry n e.replacedBy)).wrote tag n
  | .insert n => (s.modMemory (·.insertTail n e)).wrote tag n
  | .evict n => ((s.modMemory (·.insertTail n e)).raiseDevice .pmEvict).wrote tag n
  | .full => (s.raiseDevice .pmFull).refuse .full tag 0x22

/-- A PM Write whose bytes pass the checks acts by the first row of R93 that fits. -/
theorem exec_pmWrite_row (tag : Byte) (hr : s.host.inReset = false) {b : ImportBytes} {e : Entry} {o : Option SlotId}
    (he : importEntry b = some e) (ho : targetOf b.target = some o) {row : WriteCase}
    (hw : s.memory.writeCase b.vendor b.product o = row) :
    exec (.pmWrite tag b) s = .next (s.writeRow tag e row) := by
  have hv : e.vendor = b.vendor := by rw [importEntry_fields he]
  have hd : e.product = b.product := by rw [importEntry_fields he]
  rw [exec_pmWrite tag hr, State.pmWrite, he, ho]
  dsimp only
  rw [State.write, hv, hd, hw]
  cases row <;> rfl

/-- Settles O19: the rows of R93, by whether the key is held, the target, the users and the room. -/
theorem pmWriteReplacesOrInserts : Obligations.PmWriteReplacesOrInserts := by
  unfold Obligations.PmWriteReplacesOrInserts
  intro s tag b k hr hm
  refine ⟨fun hbad => ?badParam, fun new hnew target htarget => ⟨?held, fun habsent => ⟨?targetInUse, ?insert, ?noVacant⟩⟩⟩
  case badParam =>
    refine answers_of_exec ?_
    rw [exec_pmWrite tag hr, State.pmWrite]
    rcases hbad with e | e
    · rw [e]
      rfl
    · rw [e]
      cases importEntry b <;> rfl
  case held =>
    intro old hold hv hd
    have hf : s.memory.find b.vendor b.product = some k := by
      rw [← hv, ← hd]
      exact ProfileMemory.find_eq hm hold
    have hu := ProfileMemory.inUse_eq (m := s.memory) hold
    refine ⟨fun ⟨n, hn, hne⟩ => ?duplicate, fun ht h => ?inUse, fun ht h => ?replace⟩
    case duplicate =>
      subst hn
      exact answers_of_exec (exec_pmWrite_row tag hr hnew htarget (ProfileMemory.writeCase_elsewhere hf hne))
    case inUse =>
      refine answers_of_exec (exec_pmWrite_row tag hr hnew htarget (row := .inUse) ?_)
      rw [ProfileMemory.writeCase_here hf ht, hu, if_pos (by simpa using h)]
    case replace =>
      refine ⟨_, exec_pmWrite_row tag hr hnew htarget (row := .replace k) ?_, ?_, fun n hn => ?_, rfl, rfl, rfl, rfl, rfl,
        replied_respond _ _ _ _ _⟩
      · rw [ProfileMemory.writeCase_here hf ht, hu, if_neg (by simp [h])]
      · refine (ProfileMemory.entry_modEntry_same _ _ _).trans ?_
        rw [show s.memory.entry k = some old from hold, importEntry_fields hnew]
        rfl
      · exact ProfileMemory.entry_modEntry_ne _ _ _ _ hn
  case targetInUse =>
    rintro rfl old hold h
    refine answers_of_exec (exec_pmWrite_row tag hr hnew htarget (row := .inUse) ?_)
    rw [ProfileMemory.writeCase_target (ProfileMemory.find_eq_none habsent), ProfileMemory.inUse_eq (m := s.memory) hold,
      if_pos (by simpa using h)]
  case insert =>
    intro hcase
    have hf := ProfileMemory.find_eq_none (m := s.memory) habsent
    obtain ⟨h1, h2⟩ := s.wrote_insertTail tag k new
    refine ⟨_, exec_pmWrite_row tag hr hnew htarget (row := .insert k) ?_, h1.trans (congrArg some (importEntry_fields hnew)),
      h2, rfl, rfl, rfl, rfl, rfl, replied_respond _ _ _ _ _⟩
    rcases hcase with ⟨rfl, hu⟩ | ⟨rfl, hk, hlow⟩
    · rw [ProfileMemory.writeCase_target hf, if_neg]
      unfold ProfileMemory.inUse
      cases he : s.memory.entry k with
      | none => simp
      | some e =>
        rw [show s.entry k = some e from he] at hu
        simpa using hu
    · exact ProfileMemory.writeCase_vacant hf (ProfileMemory.vacant_eq hk hlow)
  case noVacant =>
    rintro rfl hall
    have hf := ProfileMemory.find_eq_none (m := s.memory) habsent
    have hv := ProfileMemory.vacant_eq_none (m := s.memory) hall
    refine ⟨fun hnone => ?full, fun hsome => ?evict⟩
    case full =>
      have hev : s.memory.evictable = none := List.find?_eq_none.mpr fun n _ => by
        have := hnone n
        simpa [State.entry] using this
      obtain ⟨h1, h2⟩ := raised_device s .pmFull
      exact ⟨_, exec_pmWrite_row tag hr hnew htarget (ProfileMemory.writeCase_full hf hv hev), rfl, rfl, rfl, h1, h2,
        replied_refuse _ _ _ _⟩
    case evict =>
      obtain ⟨h1, h2⟩ := raised_device (s.modMemory (·.insertTail k new)) .pmEvict
      obtain ⟨h3, h4⟩ := s.wrote_insertTail tag k new
      exact ⟨_, exec_pmWrite_row tag hr hnew htarget (ProfileMemory.writeCase_evict hf hv hsome),
        h3.trans (congrArg some (importEntry_fields hnew)), h4, rfl, rfl, rfl, rfl, h1, h2, replied_respond _ _ _ _ _⟩

/-! ### PM Clear -/

theorem exec_pmClear (tag : Byte) (hr : s.host.inReset = false) (b : Byte) :
    exec (.pmClear tag b) s = .next (s.pmClear tag b) :=
  congrArg _ (State.taking_running s _ hr)

theorem yesNoOf_above {b : Byte} (h : 1 < b.toNat) : yesNoOf b = none := by
  unfold yesNoOf
  split <;> first | rfl | omega

/-- What is left of an entry by a clear (R97). -/
theorem slotAfterClear_eq (b : Bool) (o : Option Entry) :
    slotAfterClear b o = o.filter fun e => 0 < e.users || (e.pinned.isSome && !b) := by
  cases o with
  | none => rfl
  | some e =>
    have hc : Entry.cleared b e = !(decide (0 < e.users) || (e.pinned.isSome && !b)) := by
      rcases Nat.eq_zero_or_pos e.users with h | h
      · cases b <;> cases hp : e.pinned <;> simp [Entry.cleared, h, hp]
      · simp [Entry.cleared, h, Nat.pos_iff_ne_zero.mp h]
    rw [slotAfterClear, Option.any_some, hc, Option.filter_some]
    cases decide (0 < e.users) || (e.pinned.isSome && !b) <;> rfl

theorem ProfileMemory.isSome_clear (m : ProfileMemory) (b : Bool) (n : SlotId) :
    ((m.clear b).entry n).isSome = ((m.entry n).isSome && !(m.entry n).any (Entry.cleared b)) := by
  rw [ProfileMemory.entry_clear]
  unfold slotAfterClear
  cases m.entry n with
  | none => rfl
  | some e => cases h : Entry.cleared b e <;> simp [h]

/-- A clear changes a slot exactly when it vacates it. -/
theorem ProfileMemory.clear_same_iff (m : ProfileMemory) (b : Bool) :
    (∀ n, (m.clear b).entry n = m.entry n) ↔ m.clearedSlots b = [] := by
  simp only [ProfileMemory.clearedSlots, List.filter_eq_nil_iff]
  refine ⟨fun h n _ hc => ?_, fun h n => ?_⟩
  · have := ProfileMemory.isSome_clear m b n
    rw [h n, hc] at this
    cases he : m.entry n with
    | none => simp [he] at hc
    | some e => simp [he] at this
  · rw [ProfileMemory.entry_clear, slotAfterClear, if_neg (h n (List.mem_finRange n))]

/-- A clear moves the order count once when it vacates a slot. -/
theorem ProfileMemory.orderCount_clear (m : ProfileMemory) (b : Bool) :
    (m.clear b).orderCount
      = if ∀ n, (m.clear b).entry n = m.entry n then m.orderCount else m.orderCount + 1 := by
  by_cases h : m.clearedSlots b = []
  · rw [if_pos ((m.clear_same_iff b).mpr h)]
    unfold ProfileMemory.clear
    rw [if_pos h]
  · rw [if_neg fun e => h ((m.clear_same_iff b).mp e)]
    unfold ProfileMemory.clear
    rw [if_neg h]
    rfl

/-- Settles O22: a clear vacates the spare entries, keeps the order of the others and moves the order count once. -/
theorem pmClearVacatesSpareEntries : Obligations.PmClearVacatesSpareEntries := by
  unfold Obligations.PmClearVacatesSpareEntries
  intro s tag b pinsToo hr
  refine ⟨fun hb => ?badParam, ?cleared⟩
  case badParam =>
    refine answers_of_exec ?_
    rw [exec_pmClear tag hr, State.pmClear, yesNoOf_above hb]
    rfl
  case cleared =>
    have hx : exec (.pmClear tag (yesNo pinsToo)) s
        = .next ((s.modMemory (·.clear pinsToo)).respondWith tag 0x26 fun t =>
          [byteOf (s.memory.clearedSlots pinsToo).length, byteOf t.memory.entryCount]) := by
      rw [exec_pmClear tag hr, State.pmClear, yesNoOf_yesNo]
    have entry : ∀ n, (s.memory.clear pinsToo).entry n
        = (s.entry n).filter fun e => 0 < e.users || (e.pinned.isSome && !pinsToo) := fun n =>
      (ProfileMemory.entry_clear _ _ _).trans (slotAfterClear_eq _ _)
    have gone : ∀ n, ((s.entry n).isNone || ((s.memory.clear pinsToo).entry n).isSome)
        = !(s.entry n).any (Entry.cleared pinsToo) := fun n => by
      rw [ProfileMemory.isSome_clear]
      cases he : s.entry n with
      | none => simp
      | some e => simp [show s.memory.entry n = some e from he]
    refine ⟨_, hx, entry, ?recency, ?order, rfl, rfl, rfl, rfl, ?reply⟩
    case recency =>
      refine (ProfileMemory.recency_clear _ _).trans (List.filter_congr fun n _ => ?_)
      exact (gone n).symm
    case order => exact s.memory.orderCount_clear pinsToo
    case reply =>
      have hc : s.memory.clearedSlots pinsToo
          = allSlots.filter fun n => (s.entry n).isSome && ((s.memory.clear pinsToo).entry n).isNone := by
        refine List.filter_congr fun n _ => ?_
        have := gone n
        cases he : (s.entry n).any (Entry.cleared pinsToo) <;> rw [he] at this <;>
          cases h1 : s.entry n <;> cases h2 : (s.memory.clear pinsToo).entry n <;>
          simp_all [show s.memory.entry n = s.entry n from rfl]
      unfold State.respondWith
      dsimp only
      rw [hc]
      exact replied_respond _ _ _ _ _

end Sys2Proof.Machine
end

section
/-! Facts about events at one port: the edges of its pins, the probe band, the current readings, the link timer. -/

namespace Sys2Proof.Machine

variable {s t : State} {p : PortId}

/-! ### What an event leaves alone -/

theorem local_of_exec {c : Instr} {r : Nat} (hc : c ∈ portEvents p r) (h : exec c s = .next t) : Local p s t := by
  obtain ⟨u, hu, hl⟩ := portEvents_local s p r c hc
  cases hu.symm.trans h
  exact hl

theorem onlyPort_modPort (s : State) (p : PortId) (f : Port → Port) : OnlyPort p s (s.modPort p f) :=
  ⟨fun q hq => State.port_modPort_ne s p q f hq, rfl, rfl, rfl, rfl, rfl, rfl⟩

theorem OnlyPort.then_modPort (h : OnlyPort p s t) (f : Port → Port) : OnlyPort p s (t.modPort p f) := by
  obtain ⟨hq, hb, hm, hn, hh, hf, hp⟩ := h
  exact ⟨fun q hne => (State.port_modPort_ne t p q f hne).trans (hq q hne), hb, hm, hn, hh, hf, hp⟩

/-- A change of the pins followed by a change of the port unit. -/
theorem onlyPort_edge (s : State) (p : PortId) (f : Pins → Pins) (g : Port → Port) :
    OnlyPort p s ((s.modPins p f).modPort p g)
      ∧ ((s.modPins p f).modPort p g).port p = g { s.port p with pins := f (s.port p).pins } :=
  ⟨(onlyPort_modPort s p _).then_modPort g, by rw [State.port_modPort_same, State.port_modPins_same]⟩

/-! ### A release event at a port that does not wait -/

@[simp] theorem State.victim_serve (n : Nat) (s : State) (r : PortId) : (State.serve n s).victim r = s.victim r :=
  State.serve_keeps (P := fun u => u.victim r = s.victim r) (fun _ _ _ h _ _ => h) n s rfl

@[simp] theorem State.victim_afterRelease (s : State) (r : PortId) : s.afterRelease.victim r = s.victim r :=
  State.afterRelease_keeps (P := fun u => u.victim r = s.victim r) (fun _ _ _ h _ _ => h) (fun _ _ h _ _ => h) s rfl

/-- What a release event leaves of a port that has no entry in the queue. -/
structure Released (p : PortId) (s t : State) : Prop where
  port : t.port p = s.port p
  grant : t.grant p = s.grant p
  group : t.group (portGroup p) = s.group (portGroup p)
  queued : t.queued p = false
  victim : t.victim p = s.victim p
  memory : t.memory = s.memory

theorem released (h : s.queued p = false) : Released p s s.afterRelease := by
  obtain ⟨hp, hg, hn, hq⟩ := s.afterRelease_frame p h
  exact ⟨hp, hg, hn, hq, s.victim_afterRelease p, s.memory_afterRelease⟩

/-! ### A port that is shut down -/

/-- A shut-down and its event's change of the port unit: the unit, its grant, its marks, and no notice. -/
theorem State.shutDown_modPort (s : State) (p : PortId) {mA : Nat} (hm : mA ≤ 500) (f : Port → Port) :
    ((s.shutDown p mA).modPort p f).port p = f (s.port p).shut ∧ ((s.shutDown p mA).modPort p f).grant p = mA
      ∧ ((s.shutDown p mA).modPort p f).queued p = false ∧ ((s.shutDown p mA).modPort p f).victim p = false
      ∧ ((s.shutDown p mA).modPort p f).notices = s.notices := by
  rw [State.modPort_shutDown]
  refine ⟨?port, State.grant_fallGrant_same _ _ _, ?queued, State.victim_fallGrant_base _ _ _ hm, ?notices⟩
  case port => rw [State.port_fallGrant, State.port_withdraw, State.port_modPort_same, State.port_unbindSession]
  case queued =>
    unfold State.queued
    rw [State.queue_fallGrant]
    exact State.queued_withdraw_same _ _
  case notices =>
    rw [State.notices_fallGrant, State.unbindSession_eq]
    rfl

/-! ### The obligations -/

/-- A detach at the port itself: the phase is held, a queue entry withdrawn. -/
theorem State.detach_frame (s : State) (p : PortId) :
    (s.detach p).port p = (s.port p).detach ∧ (s.detach p).grant p = s.grant p ∧ (s.detach p).queued p = false
      ∧ (s.detach p).group (portGroup p) = s.group (portGroup p) ∧ (s.detach p).memory = s.memory := by
  unfold State.detach
  have hport : (s.modPort p Port.detach).port p = (s.port p).detach := State.port_modPort_same _ _ _
  cases hq : s.queued p with
  | false => exact ⟨hport, rfl, hq, rfl, rfl⟩
  | true =>
    have r := released (p := p) (s := (s.modPort p Port.detach).withdraw p) (State.queued_withdraw_same _ _)
    exact ⟨r.port.trans hport, r.grant, r.queued, r.group, r.memory⟩

/-- Settles O38: an occupied removable port goes to hold with its phase held; any other port records the level alone. -/
theorem detachStartsTheHold : Obligations.DetachStartsTheHold := by
  unfold Obligations.DetachStartsTheHold
  intro s p hr
  have hx : exec (.attnFalling p) s = .next (State.detachEdge p (s.modPins p fun x => { x with att := false })) :=
    congrArg Host.Outcome.next (State.running_running _ _ hr)
  refine ⟨fun hf hs x hses => ?detached, fun h => ?recorded⟩
  case detached =>
    have hl := local_of_exec (p := p) (r := 0) (by simp [portEvents]) hx
    obtain ⟨hport, hgrant, hq, hgroup, hmem⟩ := (s.modPins p fun x => { x with att := false }).detach_frame p
    have hd : State.detachEdge p (s.modPins p fun x => { x with att := false })
        = (s.modPins p fun x => { x with att := false }).detach p := by
      simp [State.detachEdge, hf, hs]
    rw [hd] at hx hl
    refine ⟨_, hx, hl.1, hl.2.1, hmem, hport.trans ?_, hgrant, hq, hgroup⟩
    simp [Port.detach, hses, holdTime]
  case recorded =>
    have hd : State.detachEdge p (s.modPins p fun x => { x with att := false })
        = s.modPins p fun x => { x with att := false } := by
      rcases h with h | h <;> simp [State.detachEdge, h]
    exact ⟨_, hx.trans (congrArg _ hd), onlyPort_modPort _ _ _, State.port_modPins_same _ _ _⟩

theorem linkTime_eq (code : Nat) : linkTime code = if code = 0 then none else some (40 * 2 ^ (code - 1)) := by
  cases code <;> rfl

/-- Settles O40: the edges of the link pin drive the link timer of a fixed port. -/
theorem linkEdgesDriveTheLinkTimer : Obligations.LinkEdgesDriveTheLinkTimer := by
  unfold Obligations.LinkEdgesDriveTheLinkTimer
  intro s p hr
  have up : exec (.loknRising p) s = .next (State.linkUp p (s.modPins p fun x => { x with lok := true })) :=
    congrArg Host.Outcome.next (State.running_running _ _ hr)
  have down : exec (.loknFalling p) s = .next (State.linkDown p (s.modPins p fun x => { x with lok := false })) :=
    congrArg Host.Outcome.next (State.running_running _ _ hr)
  obtain ⟨hup, hupPort⟩ := onlyPort_edge s p (fun x => { x with lok := true })
    fun q => if q.fixed then { q with recoveryCount := 0, timers := { q.timers with link := none } } else q
  obtain ⟨hdown, hdownPort⟩ := onlyPort_edge s p (fun x => { x with lok := false })
    fun q => if q.fixed && q.state = .occupied && !q.session.any (·.resumptionWindow) then q.startLink else q
  refine ⟨⟨_, up, hup, hupPort⟩, fun hf hs hw => ⟨_, down, hdown, hdownPort.trans ?_⟩,
    fun h => ⟨_, down, hdown, hdownPort.trans (if_neg ?_)⟩⟩
  · simp [hf, hs, hw, Port.startLink, linkTime_eq]
  · rcases h with h | h | h <;> simp [h]

/-- Settles O41: the probe events drive the detector; the taps and the switch follow the presented condition and the
state. -/
theorem probeEventsDriveTheDetector : Obligations.ProbeEventsDriveTheDetector := by
  unfold Obligations.ProbeEventsDriveTheDetector
  intro s p
  refine ⟨fun hr => ⟨?enter, ?leave⟩, fun ht hd => ?held, fun ht => ?idle, ⟨?neutral, ?a, ?l, ?b, ?h, ?f⟩, fun hl => ?pen⟩
  case enter =>
    obtain ⟨ho, hport⟩ := onlyPort_edge s p (fun x => { x with probeBand := true }) Port.probeEnters
    exact ⟨_, congrArg Host.Outcome.next (State.running_running _ _ hr), ho, hport⟩
  case leave =>
    obtain ⟨ho, hport⟩ := onlyPort_edge s p (fun x => { x with probeBand := false }) Port.probeLeaves
    refine ⟨_, congrArg Host.Outcome.next (State.running_running _ _ hr), ho, fun hd => hport.trans ?_,
      fun hd => hport.trans ?_, fun hd => hport.trans ?_⟩
    · simp [Port.probeLeaves, hd]
    · simp [Port.probeLeaves, hd]
    · rcases hd with hd | hd <;> simp [Port.probeLeaves, hd]
  case held =>
    obtain ⟨left, hleft⟩ := Option.isSome_iff_exists.mp ht
    have hx : exec (.probeTimerExpiry p) s
        = .next ((s.modTimers p fun x => { x with probe := none }).modPort p Port.probeHeld) := by
      refine congrArg Host.Outcome.next ?_
      rw [show (s.timers p).probe = some left from hleft]
      rfl
    refine ⟨_, hx, (onlyPort_modPort s p _).then_modPort _, ?_⟩
    rw [State.port_modPort_same, State.port_modTimers_same]
    exact if_pos hd
  case idle =>
    refine ⟨_, congrArg Host.Outcome.next ?_, rfl⟩
    rw [show (s.timers p).probe = none from ht]
    rfl
  case neutral => rintro (h | h) <;> simp [Port.daTap, Port.dbTap, tapA, tapB, h]
  case a => intro h; simp [Port.daTap, Port.dbTap, tapA, tapB, h]
  case l => intro h; simp [Port.daTap, Port.dbTap, tapA, tapB, h]
  case b => intro h; simp [Port.daTap, Port.dbTap, tapA, tapB, h]
  case h => intro h; simp [Port.daTap, Port.dbTap, tapA, tapB, h]
  case f => intro h; simp [Port.daTap, Port.dbTap, tapA, tapB, h]
  case pen =>
    obtain ⟨hsw, -⟩ := hl
    rw [show (s.port p).pen = (s.port p).state.isOn from hsw]
    cases (s.port p).state <;> simp [PortState.isOn]

end Sys2Proof.Machine
end

section
/-! Shut-downs: Disable Port, Reset Port, a trip, and the two ends of the link timer. -/

namespace Sys2Proof.Machine

variable {s t : State} {p : PortId}

/-! ### Release events after a shut-down -/

theorem Acts.othersKept_modPort {f : Port → Port} (h : Acts p (s.modPort p f) t) : OthersKept p s t := by
  obtain ⟨hp, hf, hm, ht, hw, hset, hrest⟩ := h.othersKept
  refine ⟨hp, hf, hm, ht, hw, fun q hq => ?_, fun q hq hn => ?_⟩
  · have := hset q hq
    rwa [State.port_modPort_ne _ _ _ _ hq] at this
  · have := hrest q hq hn
    rwa [State.port_modPort_ne _ _ _ _ hq] at this

/-- A shut-down leaves the rest of the part alone, whatever it makes of its port unit. -/
theorem othersKept_shutDown (s : State) (p : PortId) (mA : Nat) (f : Port → Port) :
    OthersKept p s ((s.shutDown p mA).modPort p f).afterRelease := by
  rw [State.modPort_shutDown, State.unbindSession_eq]
  refine Acts.othersKept_modPort (f := fun q => f q.shut) (Acts.afterRelease (Acts.fallGrant ?_ mA))
  exact Acts.withdraw (Acts.modMemory (Acts.refl p _) (ProfileMemory.unbind (s.port p).bound)
    (by cases (s.port p).bound <;> rfl)) p

theorem RaisedIn.congr {u v : State} {g : GroupId} {k : Kind} (h : RaisedIn u v g k) (hs : s.group g = u.group g)
    (ht : t.group g = v.group g) : RaisedIn s t g k := by
  unfold RaisedIn
  rw [hs, ht]
  exact h

theorem raisedIn_raisePort (s : State) (p : PortId) (k : Kind) : RaisedIn s (s.raisePort p k) (portGroup p) k :=
  raisedIn_raise s (portGroup p) k

/-- A shut-down that raises nothing, to its release event. -/
theorem State.shutDown_quiet (s : State) (p : PortId) {mA : Nat} (hm : mA ≤ 500) (f : Port → Port) :
    let t := ((s.shutDown p mA).modPort p f).afterRelease
    t.port p = f (s.port p).shut ∧ t.grant p = mA ∧ t.queued p = false ∧ t.victim p = false
      ∧ t.group (portGroup p) = s.group (portGroup p) := by
  obtain ⟨hport, hgrant, hq, hv, hn⟩ := s.shutDown_modPort p hm f
  have r := released hq
  exact ⟨r.port.trans hport, r.grant.trans hgrant, r.queued, r.victim.trans hv,
    r.group.trans (congrArg (fun n : Notices => n.groups[(portGroup p).val]) hn)⟩

/-- A shut-down that raises a kind, to its release event. -/
theorem State.shutDown_raised (s : State) (p : PortId) {mA : Nat} (hm : mA ≤ 500) (f : Port → Port) (k : Kind) :
    let t := (((s.shutDown p mA).modPort p f).raisePort p k).afterRelease
    t.port p = f (s.port p).shut ∧ t.grant p = mA ∧ t.queued p = false ∧ t.victim p = false
      ∧ RaisedIn s t (portGroup p) k := by
  obtain ⟨hport, hgrant, hq, hv, hn⟩ := s.shutDown_modPort p hm f
  have r := released (s := ((s.shutDown p mA).modPort p f).raisePort p k) hq
  exact ⟨r.port.trans hport, r.grant.trans hgrant, r.queued, r.victim.trans hv,
    (raisedIn_raisePort _ p k).congr (congrArg (fun n : Notices => n.groups[(portGroup p).val]) hn.symm) r.group⟩

/-! ### Disable Port and Reset Port -/

theorem OthersKept.respond (h : OthersKept p s t) (st : Status) (tag code : Byte) (data : List Byte) :
    OthersKept p s (t.respond st tag code data) := h

/-- The port unit that a Disable Port leaves. -/
def Port.disabledNow (q : Port) : Port :=
  { q with
    state := .disabled, tripCount := 0, recoveryCount := 0, quarantine := none
    policy := { q.policy with enabled := false } }

theorem State.disable_eq (s : State) (p : PortId) :
    s.disable p = ((s.shutDown p 0).modPort p Port.disabledNow).afterRelease := by
  unfold State.disable State.setEnabled
  rw [State.modPort_modPort]
  rfl

theorem exec_disablePort (tag : Byte) (hr : s.host.inReset = false) (hs : (s.port p).state ≠ .disabled) :
    exec (.disablePort tag (BitVec.ofNat 8 p.val)) s
      = .next ((s.disable p).respondWith tag 0x13 (·.actionData p)) :=
  congrArg Host.Outcome.next <|
    (State.taking_running _ _ hr).trans ((State.onPort_code _ _ _ _ _).trans (if_neg hs))

theorem exec_resetPort (tag : Byte) (hr : s.host.inReset = false) (hs : (s.port p).state ≠ .disabled) :
    exec (.resetPort tag (BitVec.ofNat 8 p.val)) s
      = .next ((s.restart p).respondWith tag 0x17 (·.actionData p)) :=
  congrArg Host.Outcome.next <|
    (State.taking_running _ _ hr).trans ((State.onPort_code _ _ _ _ _).trans (if_neg hs))

/-- Settles O26: both commands shut the port down, to DISABLED with no grant or to RECOVERY with the base. -/
theorem disableAndResetPortEndEverything : Obligations.DisableAndResetPortEndEverything := by
  unfold Obligations.DisableAndResetPortEndEverything
  intro s tag p hr hs
  refine ⟨⟨_, exec_disablePort tag hr hs, ?disable⟩, ⟨_, exec_resetPort tag hr hs, ?restart⟩⟩
  case disable =>
    rw [State.disable_eq]
    obtain ⟨hport, hgrant, hq, hv, hg⟩ := s.shutDown_quiet p (Nat.zero_le 500) Port.disabledNow
    exact ⟨hport, hgrant, hq, hv, hg, replied_respond _ _ _ _ _, (othersKept_shutDown s p 0 _).respond _ _ _ _⟩
  case restart =>
    unfold State.restart
    obtain ⟨hport, hgrant, hq, hv, hg⟩ := s.shutDown_quiet p (Nat.le_refl 500) fun q =>
      { q with
        state := .recovery
        tripCount := 0
        recoveryCount := 0
        quarantine := none
        timers := { q.timers with toggleOff := some (toggleOffTime q.policy.toggleOff) } }
    exact ⟨hport, hgrant, hq, hv, hg, replied_respond _ _ _ _ _, (othersKept_shutDown s p 500 _).respond _ _ _ _⟩

/-! ### Readings -/

theorem PortState.compared_iff (st : PortState) :
    st.compared = true ↔ st = .idle ∨ st = .occupied ∨ st = .hold := by
  cases st <;> simp [PortState.compared]

/-- A reading that does not trip its port changes the port unit alone. -/
theorem State.reading_eq {mA : Nat} (h : (s.port p).state.compared = false ∨ mA ≤ tripLevel (s.grant p)
      ∨ (s.port p).overcurrent = false) :
    State.reading p mA s = s.modPort p fun q =>
      { q.takeReading mA with
        overcurrent := if (s.port p).state.compared then decide (tripLevel (s.grant p) < mA) else q.overcurrent } := by
  unfold State.reading State.compareReading
  have hgrant : (s.modPort p fun q => q.takeReading mA).grant p = s.grant p := rfl
  have hover : ((s.modPort p fun q => q.takeReading mA).port p).overcurrent = (s.port p).overcurrent := by
    rw [State.port_modPort_same]
    rfl
  dsimp only
  rw [hgrant, hover]
  cases hc : (s.port p).state.compared with
  | false => simp [Port.takeReading]
  | true =>
    by_cases hlt : tripLevel (s.grant p) < mA
    · have ho : (s.port p).overcurrent = false := by
        rcases h with h | h | h
        · exact absurd (h.symm.trans hc) (by decide)
        · omega
        · exact h
      simp [hlt, ho, State.modPort_modPort]
    · simp [hlt, State.modPort_modPort]

/-- Settles O42: a second reading above the trip level switches the port off; another is recorded. -/
theorem readingFeedsTheWindowAndTrips : Obligations.ReadingFeedsTheWindowAndTrips := by
  unfold Obligations.ReadingFeedsTheWindowAndTrips
  intro s p r hr hgrid hmax
  have hd : delivered r = r := by
    unfold delivered
    omega
  have hx : exec (.currentReading p r) s = .next (State.reading p r s) :=
    congrArg Host.Outcome.next ((State.running_running _ _ hr).trans (congrArg (State.reading p · s) hd))
  refine ⟨fun hc hlt ho => ?trip, fun h => ⟨_, hx, ?recorded⟩⟩
  case trip =>
    have hl := local_of_exec (p := p) (r := r) (by simp [portEvents]) hx
    have ht : State.reading p r s = (s.modPort p fun q => q.takeReading r).trip p := by
      unfold State.reading State.compareReading
      dsimp only
      rw [if_pos ((PortState.compared_iff _).mpr hc), if_pos (show tripLevel ((s.modPort p fun q => q.takeReading r).grant p) < r from hlt),
        if_pos (by rw [State.port_modPort_same]; exact ho)]
    rw [ht] at hx hl
    obtain ⟨hport, hgrant, hq, hv, hg⟩ := (s.modPort p fun q => q.takeReading r).shutDown_raised p (Nat.le_refl 500)
      (fun q =>
        { q with
          state := .fault
          tripCount := q.tripCount + 1
          timers := { q.timers with coolDown := some coolDownTime } }) .fault
    rw [State.port_modPort_same] at hport
    exact ⟨_, hx, hl.1, hl.2.1, hport, hgrant, hq, hv, hg⟩
  case recorded =>
    have hcalm : (s.port p).state.compared = false ∨ r ≤ tripLevel (s.grant p) ∨ (s.port p).overcurrent = false := by
      refine h.imp_left fun hn => ?_
      obtain ⟨h1, h2, h3⟩ := hn
      exact Bool.eq_false_iff.mpr fun hc => by
        rcases (PortState.compared_iff _).mp hc with e | e | e
        · exact h1 e
        · exact h2 e
        · exact h3 e
    rw [State.reading_eq hcalm]
    refine ⟨onlyPort_modPort _ _ _, (State.port_modPort_same _ _ _).trans ?_⟩
    by_cases hc : (s.port p).state.compared = true
    · rw [if_pos hc, if_pos ((PortState.compared_iff _).mp hc)]
      rfl
    · rw [if_neg hc, if_neg fun e => hc ((PortState.compared_iff _).mpr e)]
      rfl

/-! ### The link timer -/

theorem Session.abandon_data (x : Session) :
    x.abandon.number = x.number ∧ x.abandon.boundSlot = x.boundSlot ∧ x.abandon.verdicts = x.verdicts
      ∧ x.abandon.lastMean = x.lastMean ∧ x.abandon.shed = x.shed := by
  unfold Session.abandon
  split <;> exact ⟨rfl, rfl, rfl, rfl, rfl⟩

/-- A victim whose session is suspended: its kept signature becomes P, its grant the base. -/
def Session.shedKept (x : Session) : Session := { x with shed := true, trialsBegun := true, presented := some .P }

/-- The first part of an entry to recovery: the session suspended, a queue entry withdrawn, RECOVERY raised. -/
def State.suspendAt (s : State) (p : PortId) : State :=
  ((s.modPort p Port.enterRecovery).withdraw p).raisePort p .recovery

theorem State.enterRecovery_eq (s : State) (p : PortId) :
    s.enterRecovery p =
      if s.queued p || s.victim p then
        (if s.victim p then (s.suspendAt p).shedSuspended p else s.suspendAt p).afterRelease
      else if s.victim p then (s.suspendAt p).shedSuspended p else s.suspendAt p := rfl

/-- The entry to recovery at the port itself, a victim released. -/
theorem State.enterRecovery_frame (s : State) (p : PortId) {x : Session} (hx : (s.port p).session = some x) :
    (s.enterRecovery p).port p = { (s.port p).enterRecovery with
        session := (s.port p).enterRecovery.session.map fun y => if s.victim p then y.shedKept else y }
      ∧ (s.enterRecovery p).grant p = (if s.victim p then 500 else s.grant p)
      ∧ (s.enterRecovery p).queued p = false ∧ (s.enterRecovery p).victim p = false
      ∧ RaisedIn s (s.enterRecovery p) (portGroup p) .recovery ∧ (s.enterRecovery p).memory = s.memory := by
  have hport : (s.suspendAt p).port p = (s.port p).enterRecovery := State.port_modPort_same _ _ _
  have hq : (s.suspendAt p).queued p = false := State.queued_withdraw_same _ _
  have hg : RaisedIn s (s.suspendAt p) (portGroup p) .recovery :=
    (raisedIn_raisePort ((s.modPort p Port.enterRecovery).withdraw p) p .recovery).congr rfl rfl
  have hsome : ((s.suspendAt p).port p).session.isSome = true := by
    rw [hport]
    simp [Port.enterRecovery, hx]
  rw [State.enterRecovery_eq]
  cases hv : s.victim p with
  | false =>
    have r := released hq
    have hid : ((s.port p).enterRecovery.session.map fun y => if false = true then y.shedKept else y)
        = (s.port p).enterRecovery.session := Option.map_id'
    cases hw : s.queued p with
    | false => exact ⟨by rw [hid]; exact hport, rfl, hq, hv, hg, rfl⟩
    | true =>
      exact ⟨by rw [hid]; exact r.port.trans hport, r.grant, r.queued, r.victim.trans hv,
        hg.congr rfl r.group, r.memory⟩
  | true =>
    have hs : (s.suspendAt p).shedSuspended p = ((s.suspendAt p).modSession p Session.shedKept).fallGrant p baseGrant :=
      if_pos hsome
    have hq' : (((s.suspendAt p).modSession p Session.shedKept).fallGrant p baseGrant).queued p = false := by
      unfold State.queued
      rw [State.queue_fallGrant]
      exact hq
    have r := released hq'
    rw [if_pos rfl, Bool.or_true, if_pos rfl, hs]
    refine ⟨r.port.trans ?_, r.grant.trans (State.grant_fallGrant_same _ _ _), r.queued,
      r.victim.trans (State.victim_fallGrant_base _ _ _ (Nat.le_refl 500)), hg.congr rfl (r.group.trans ?_),
      r.memory.trans (State.memory_fallGrant _ _ _)⟩
    · rw [State.port_fallGrant, State.port_modSession_same, hport]
      rfl
    · exact congrArg (fun n : Notices => n.groups[(portGroup p).val]) (State.notices_fallGrant _ _ _)

theorem resumePlanFor_eq (o : Option Phase) :
    resumePlanFor o = if o = some .settling ∨ o = some .identifying then .settle
      else if o = some .steady then .rest else .continueTrials := by
  cases o with
  | none => rfl
  | some ph => cases ph <;> rfl

theorem exec_linkTimerExpiry (ht : (s.port p).timers.link.isSome = true) (hf : (s.port p).fixed = true)
    (hs : (s.port p).state = .occupied) :
    exec (.linkTimerExpiry p) s = .next (State.linkEnd p (s.modTimers p fun x => { x with link := none })) := by
  obtain ⟨left, hleft⟩ := Option.isSome_iff_exists.mp ht
  refine congrArg Host.Outcome.next ?_
  rw [show (s.timers p).link = some left from hleft]
  refine if_pos ?_
  rw [State.port_modTimers_same]
  simp [hf, hs]

/-- Settles O50: the link timer's expiry suspends the session, or shuts the port down at the recovery limit. -/
theorem linkExpiryRecoversOrQuarantines : Obligations.LinkExpiryRecoversOrQuarantines := by
  unfold Obligations.LinkExpiryRecoversOrQuarantines
  intro s p _ ht hf hs x hx
  have he := exec_linkTimerExpiry ht hf hs
  have hl := local_of_exec (p := p) (r := 0) (by simp [portEvents]) he
  have hport := State.port_modTimers_same s p fun x => { x with link := none }
  refine ⟨fun hlt => ⟨_, he, hl.1, hl.2.1, ?recovers⟩, fun hle => ⟨_, he, hl.1, hl.2.1, ?quarantines⟩⟩
  case recovers =>
    rw [State.linkEnd, if_pos (by rw [hport]; exact hlt)]
    obtain ⟨hrport, hgrant, hq, hv, hg, hmem⟩ :=
      (s.modTimers p fun x => { x with link := none }).enterRecovery_frame p (x := x) (by rw [hport]; exact hx)
    rw [hport] at hrport
    refine ⟨hmem, ?_⟩
    rw [hrport]
    refine ⟨rfl, rfl, rfl, rfl, rfl, rfl, rfl, hq, hv, hg, hgrant, ?_⟩
    obtain ⟨hnum, hbound, hver, hmean, hshed⟩ := x.abandon_data
    -- The kept signature is a match on the re-present here and in the statement: the split reduces both.
    cases hrp : (s.port p).rePresent <;> cases hvic : s.victim p <;>
      simp [Port.enterRecovery, hx, hrp, hvic, Session.suspend, Session.shedKept, resumePlanFor_eq, hnum, hbound, hver,
        hmean, hshed, Port.keptSignature]
  case quarantines =>
    rw [State.linkEnd, if_neg (by rw [hport]; exact Nat.not_lt.mpr hle)]
    obtain ⟨hqport, hgrant, hq, hv, hg⟩ :=
      (s.modTimers p fun x => { x with link := none }).shutDown_raised p (Nat.le_refl 500)
        (fun q => { q with state := .quarantined, quarantine := some .link }) .quarantine
    rw [hport] at hqport
    exact ⟨hqport, hgrant, hq, hv, hg⟩

end Sys2Proof.Machine
end

section
/-! Attach, re-attach and the end of the hold window. -/

namespace Sys2Proof.Machine

variable {s t : State} {p : PortId} {q : Port} {x : Session} {r : RePresent}

/-! ### Requests toward P -/

@[simp] theorem Port.hubTurns_P (q : Port) : q.hubTurns .P = false := rfl

/-- A request toward P with a re-present in flight retargets it. -/
theorem Port.request_P_flight (hsw : q.switchOn = true) (hr : q.rePresent = some r) (who : Requester) :
    q.requestRePresent .P who = { q with rePresent := some { r with target := .P, requester := who } } := by
  unfold Port.requestRePresent
  rw [if_pos hsw, hr]
  simp [RePresent.retarget]

/-- A request toward P with nothing in flight starts a re-present. -/
theorem Port.request_P_start (hsw : q.switchOn = true) (hr : q.rePresent = none) (who : Requester) :
    q.requestRePresent .P who = { q.goNeutral with rePresent := some ⟨.P, 50, false, who, q.presented⟩ } := by
  unfold Port.requestRePresent
  rw [if_pos hsw, hr]
  simp [Port.startRePresent, rePresentTime]

theorem Port.atOnce_P_flight (hr : q.rePresent = some r) : q.atOnce .P ≠ true := fun h => by
  rw [(Port.atOnce_P.mp h).1] at hr
  cases hr

/-! ### A shed that finds a re-present in flight -/

/-- The port unit of a session that heads for P under the shed with a re-present in flight. -/
def Port.shedInFlight (r : RePresent) (q : Port) : Port :=
  { q.shedNow with
    rePresent := some { r with target := .P, requester := .shed }
    session := q.shedNow.session.map fun y => { y with phase := some .representing, target := some .P } }

theorem State.shedOccupied_flight (hr : (s.port p).rePresent = some r) :
    s.shedOccupied p = (s.withdraw p).modPort p fun q => (q.shedNow.requestRePresent .P .shed).sessionRepresents := by
  rw [State.shedOccupied_eq, State.port_modPort_same, if_neg (Port.atOnce_P_flight (q := ((s.withdraw p).port p).shedNow) hr), State.representFor,
    State.modPort_modPort]

theorem State.port_shedOccupied_flight (hsw : (s.port p).switchOn = true) (hr : (s.port p).rePresent = some r) :
    (s.shedOccupied p).port p = (s.port p).shedInFlight r := by
  rw [State.shedOccupied_flight hr, State.port_modPort_same, State.port_withdraw,
    Port.request_P_flight (q := (s.port p).shedNow) hsw hr]
  rfl

/-- A shed with a re-present in flight touches the port unit and withdraws its queue entry, no more. -/
theorem State.shedOccupied_flight_frame (hr : (s.port p).rePresent = some r) :
    (s.shedOccupied p).grant p = s.grant p ∧ (s.shedOccupied p).victim p = s.victim p
      ∧ (s.shedOccupied p).queued p = false ∧ (s.shedOccupied p).notices = s.notices
      ∧ (s.shedOccupied p).memory = s.memory := by
  rw [State.shedOccupied_flight hr]
  exact ⟨rfl, rfl, State.queued_withdraw_same _ _, rfl, rfl⟩

theorem Session.shedNow_data (x : Session) :
    x.shedNow.number = x.number ∧ x.shedNow.identity = x.identity ∧ x.shedNow.boundSlot = x.boundSlot
      ∧ x.shedNow.verdicts = x.verdicts ∧ x.shedNow.held = x.held ∧ x.shedNow.shed = true
      ∧ x.shedNow.trialsBegun = true ∧ x.shedNow.recomputeDue = false ∧ x.shedNow.steps = [] := by
  unfold Session.shedNow Session.abandon
  split <;> exact ⟨rfl, rfl, rfl, rfl, rfl, rfl, rfl, rfl, rfl⟩

/-! ### Attach -/

theorem exec_attnRising (hr : s.host.inReset = false) :
    exec (.attnRising p) s = .next (State.attachEdge p (s.modPins p fun x => { x with att := true })) :=
  congrArg Host.Outcome.next (State.running_running _ _ hr)

theorem State.attachEdge_idle (hf : (s.port p).fixed = false) (hs : (s.port p).state = .idle) :
    State.attachEdge p s = s.openRemovable p := by
  simp [State.attachEdge, hf, hs]

theorem State.attachEdge_hold (hf : (s.port p).fixed = false) (hs : (s.port p).state = .hold) :
    State.attachEdge p s = s.returnInHold p := by
  simp [State.attachEdge, hf, hs]

/-- A removable port that is no victim opens its session and raises ATTACH. -/
theorem State.openRemovable_calm (hv : s.victim p = false) : s.openRemovable p = (s.modPort p Port.open).raisePort p .attach := by
  unfold State.openRemovable State.victimRest
  rw [show (s.openSession p).victim p = false from hv]
  rfl

theorem State.openRemovable_victim (hv : s.victim p = true) :
    s.openRemovable p = ((s.modPort p Port.open).raisePort p .attach).shedOccupied p := by
  unfold State.openRemovable State.victimRest
  rw [show (s.openSession p).victim p = true from hv]
  rfl

/-- Settles O36: an attach in IDLE opens a session, which a victim takes to P under the shed. -/
theorem attachOpensASession : Obligations.AttachOpensASession := by
  unfold Obligations.AttachOpensASession
  intro s p hr hf hs
  have hx := exec_attnRising (p := p) hr
  have hl := local_of_exec (p := p) (r := 0) (by simp [portEvents]) hx
  have hport := State.port_modPins_same s p fun x => { x with att := true }
  rw [State.attachEdge_idle (by rw [hport]; exact hf) (by rw [hport]; exact hs)] at hx hl
  refine ⟨fun hv => ?calm, fun hv hsw r hrp => ?shed⟩
  case calm =>
    rw [State.openRemovable_calm (s := s.modPins p fun x => { x with att := true }) hv] at hx
    refine ⟨_, hx, ?_, (raisedIn_raisePort _ p .attach).congr rfl rfl, fun q hq => ⟨?_, ?_⟩, ?_, rfl, rfl, rfl, rfl⟩
    · rw [State.port_raisePort, State.port_modPort_same, hport]
      rfl
    · rw [State.port_raisePort, State.port_modPort_ne _ _ _ _ hq]
      exact State.port_modPort_ne _ _ _ _ hq
    · exact State.group_raise_ne _ _ _ _ (portGroup_ne hq)
    · exact State.group_raise_ne _ _ _ _ (portGroup_ne_device p).symm
  case shed =>
    rw [State.openRemovable_victim (s := s.modPins p fun x => { x with att := true }) hv] at hx hl
    have hopen : (((s.modPins p fun x => { x with att := true }).modPort p Port.open).raisePort p .attach).port p
        = Port.open { s.port p with pins := { (s.port p).pins with att := true } } := by
      rw [State.port_raisePort, State.port_modPort_same, hport]
    have hsw' := (congrArg Port.switchOn hopen).trans hsw
    have hrp' := (congrArg Port.rePresent hopen).trans hrp
    obtain ⟨hgrant, hvic, hq, hn, hmem⟩ := State.shedOccupied_flight_frame hrp'
    have hafter := State.port_shedOccupied_flight hsw' hrp'
    rw [hopen] at hafter
    refine ⟨_, hx, hl.1, hl.2.1, hmem, hgrant, hvic.trans hv, hq,
      (raisedIn_raisePort _ p .attach).congr rfl (congrArg (fun n : Notices => n.groups[(portGroup p).val]) hn), ?_⟩
    rw [hafter]
    refine ⟨rfl, rfl, rfl, rfl, rfl, ?_⟩
    simp [Port.shedInFlight, Port.shedNow, Port.open, Port.newSession, Session.shedNow, Session.abandon, Session.steps]

/-! ### The return within the hold window -/

theorem State.returnInHold_judged (hx : (s.port p).session = some x) (hh : x.held = some .evaluating) {sig : Sig}
    (hj : x.judged = some sig) : s.returnInHold p = s.bounce p sig := by
  unfold State.returnInHold
  rw [hx]
  simp only [hh, hj]

theorem State.returnInHold_other (hx : (s.port p).session = some x) (hh : x.held ≠ some .evaluating ∨ x.judged = none) :
    s.returnInHold p = s.reAttach p := by
  unfold State.returnInHold
  rw [hx]
  simp only
  split
  · rename_i he hj
    rcases hh with h | h
    · exact absurd he h
    · cases h.symm.trans hj
  · rfl

/-- The port unit whose session comes back to its held STEADY. -/
def Port.rejoined (q : Port) : Port :=
  { q.unheld with session := q.unheld.session.map fun y => { y with phase := some .steady, held := none } }

/-- The port unit whose session comes back rejected for a signature (R34). -/
def Port.bounced (q : Port) : Port :=
  Port.resettled { q.unheld with session := q.unheld.session.map (·.clearAccumulators) }

theorem State.reAttach_calm (hv : s.victim p = false) :
    s.reAttach p = (s.modPort p fun q =>
      if s.heldPhase p = some .steady then q.rejoined else q.unheld.resettled).raisePort p .attach := by
  unfold State.reAttach
  dsimp only
  rw [hv, if_neg Bool.false_ne_true, State.unhold_eq]
  by_cases h : s.heldPhase p = some .steady
  · rw [if_pos h, State.modSession, State.modPort_raisePort, State.modPort_modPort]
    simp only [h, if_true]
    rfl
  · rw [if_neg h, State.resettle_eq, State.modPort_raisePort, State.modPort_modPort]
    simp only [h, if_false]

theorem State.reAttach_victim (hv : s.victim p = true) :
    s.reAttach p = ((s.modPort p fun q =>
      { q.unheld with session := q.unheld.session.map fun y => { y with held := none } }).raisePort p .attach).shedOccupied p := by
  unfold State.reAttach
  dsimp only
  rw [hv, if_pos rfl, State.unhold_eq, State.modSession, State.modPort_raisePort, State.modPort_modPort]

theorem State.bounce_eq (s : State) (p : PortId) (sig : Sig) :
    s.bounce p sig
      = (((s.recordVerdict p sig .rejected).modPort p Port.bounced).raisePort p .verdict).raisePort p .attach := by
  unfold State.bounce
  dsimp only
  rw [State.unhold_eq, State.resettle_eq, State.modSession, State.modPort_raisePort, State.modPort_raisePort,
    State.modPort_modPort, State.modPort_raisePort, State.modPort_modPort]
  rfl

/-! ### Recording a verdict -/

/-- A recorded verdict changes one session and, when it folds, the entry that session is bound to. -/
theorem State.recordVerdict_frame (s : State) (p : PortId) (sig : Sig) (v : Verdict) :
    (s.recordVerdict p sig v).budget = s.budget ∧ (s.recordVerdict p sig v).notices = s.notices := by
  unfold State.recordVerdict
  cases (s.port p).session with
  | none => exact ⟨rfl, rfl⟩
  | some x =>
    dsimp only
    cases x.boundSlot with
    | none => exact ⟨rfl, rfl⟩
    | some n =>
      dsimp only
      split <;> exact ⟨rfl, rfl⟩

theorem State.session_recordVerdict (hx : (s.port p).session = some x) (sig : Sig) (v : Verdict) :
    (s.recordVerdict p sig v).port p
      = { s.port p with session := some { x with
          verdicts := recordIn x.verdicts ⟨sig, v, v.counts && x.boundSlot.isSome⟩ } } := by
  rw [State.port_recordVerdict, hx]
  rfl

theorem State.memory_recordVerdict (hx : (s.port p).session = some x) (sig : Sig) (v : Verdict) :
    (s.recordVerdict p sig v).memory
      = if v.counts && s.learns x then x.boundSlot.elim s.memory fun n => s.memory.fold n sig (v = .accepted)
        else s.memory := by
  unfold State.recordVerdict
  rw [hx]
  dsimp only
  cases x.boundSlot with
  | none => exact (ite_self _).symm
  | some n =>
    dsimp only
    split <;> rfl

/-- The entry of a verdict that folds. -/
theorem State.entry_recordVerdict (hx : (s.port p).session = some x) {n : SlotId} (hn : x.boundSlot = some n) {e : Entry}
    (he : s.entry n = some e) (hp : e.pinned = none) (sig : Sig) {v : Verdict} (hv : v.counts = true) :
    (s.recordVerdict p sig v).entry n
      = some { e with tallies := e.tallies.modify (Tally.fold (v = .accepted)) sig } := by
  have hl : s.learns x = true := by simp [State.learns, State.boundEntry, hn, he, hp]
  unfold State.entry
  rw [State.memory_recordVerdict hx, hv, hl, hn, if_pos (show (true && true) = true from rfl)]
  change (s.memory.fold n sig _).entry n = _
  rw [ProfileMemory.fold_eq he, ProfileMemory.entry_toFront, ProfileMemory.entry_modEntry_same,
    show s.memory.entry n = some e from he]
  rfl

/-! ### Pending kinds -/

theorem pending_raised {g : GroupId} {k : Kind} (h : RaisedIn s t g k) : (t.group g).pending &&& k.mask ≠ 0 := by
  rw [h.1]
  have hm : k.mask ≠ 0 := by cases k <;> decide
  have : ((s.group g).pending ||| k.mask) &&& k.mask = k.mask := by
    ext i
    simp only [BitVec.getElem_and, BitVec.getElem_or]
    cases k.mask[i] <;> simp
  rwa [this]

theorem pending_kept {g : GroupId} {k : Kind} (h : RaisedIn s t g k) {m : Half} (hm : (s.group g).pending &&& m ≠ 0) :
    (t.group g).pending &&& m ≠ 0 := fun h0 => hm <| by
  rw [h.1] at h0
  ext i hi
  have := congrArg (·[i]) h0
  simp only [BitVec.getElem_and, BitVec.getElem_or] at this ⊢
  revert this
  cases (s.group g).pending[i] <;> simp

/-- Settles O37: the return within the hold window rejects a judged signature, resumes a held STEADY, settles anew, or goes
on to P under the shed. -/
theorem returnInHoldBouncesOrResumes : Obligations.ReturnInHoldBouncesOrResumes := by
  unfold Obligations.ReturnInHoldBouncesOrResumes
  intro s p hr hf hs x hses
  have hx := exec_attnRising (p := p) hr
  have hl := local_of_exec (p := p) (r := 0) (by simp [portEvents]) hx
  have hport := State.port_modPins_same s p fun x => { x with att := true }
  rw [State.attachEdge_hold (by rw [hport]; exact hf) (by rw [hport]; exact hs)] at hx hl
  have hses' : ((s.modPins p fun x => { x with att := true }).port p).session = some x := by rw [hport]; exact hses
  refine ⟨fun hv => ?calm, fun hv hne hsw r hrp => ?shed⟩
  case shed =>
    rw [State.returnInHold_other hses' (Or.inl hne),
      State.reAttach_victim (s := s.modPins p fun x => { x with att := true }) hv] at hx hl
    have hback : (((s.modPins p fun x => { x with att := true }).modPort p fun q =>
        { q.unheld with session := q.unheld.session.map fun y => { y with held := none } }).raisePort p .attach).port p
          = { (s.port p).unheld with
              pins := { (s.port p).pins with att := true }
              session := some { x with current := none, held := none } } := by
      rw [State.port_raisePort, State.port_modPort_same, hport]
      simp [Port.unheld, hses]
    have hsw' := (congrArg Port.switchOn hback).trans hsw
    have hrp' := (congrArg Port.rePresent hback).trans hrp
    obtain ⟨hgrant, hvic, hq, hn, hmem⟩ := State.shedOccupied_flight_frame hrp'
    have hafter := State.port_shedOccupied_flight hsw' hrp'
    rw [hback] at hafter
    refine ⟨_, hx, hl.1, hl.2.1, hmem, hgrant, hvic.trans hv, hq,
      (raisedIn_raisePort _ p .attach).congr rfl (congrArg (fun n : Notices => n.groups[(portGroup p).val]) hn), ?_⟩
    rw [hafter]
    refine ⟨rfl, rfl, rfl, rfl, rfl, rfl, ?_⟩
    obtain ⟨h1, h2, h3, h4, h5, h6, h7, h8, h9⟩ := Session.shedNow_data { x with current := none, held := none }
    simp [Port.shedInFlight, Port.shedNow, Session.steps] at h9 ⊢
    simp [h1, h2, h3, h4, h5, h6, h7, h8, h9]
  case calm =>
    by_cases hh : x.held = some .evaluating ∧ ∃ sig, x.judged = some sig
    · obtain ⟨hev, sig, hj⟩ := hh
      rw [State.returnInHold_judged hses' hev hj, State.bounce_eq] at hx hl
      obtain ⟨hb, hn⟩ := (s.modPins p fun x => { x with att := true }).recordVerdict_frame p sig .rejected
      have hrec := State.session_recordVerdict hses' sig .rejected
      have hverdict := raisedIn_raisePort
        (((s.modPins p fun x => { x with att := true }).recordVerdict p sig .rejected).modPort p Port.bounced) p .verdict
      have hattach := raisedIn_raisePort
        ((((s.modPins p fun x => { x with att := true }).recordVerdict p sig .rejected).modPort p Port.bounced).raisePort p
          .verdict) p .attach
      have hgroup : (((s.modPins p fun x => { x with att := true }).recordVerdict p sig .rejected).modPort p
          Port.bounced).group (portGroup p) = s.group (portGroup p) :=
        congrArg (fun n : Notices => n.groups[(portGroup p).val]) hn
      refine ⟨_, hx, hl.1, hl.2.1, ?_⟩
      rw [State.port_raisePort, State.port_raisePort, State.port_modPort_same, hrec, hport]
      refine ⟨rfl, rfl, rfl, congrArg (fun b : Budget => b.grants[p.val]) hb, rfl, rfl, pending_raised hattach,
        fun _ st hst => ⟨?_, rfl, pending_kept hattach (pending_raised hverdict), ?_, fun n hbn e he hpin => ?_⟩,
        fun h => absurd (hev.symm.trans h) (by decide), fun h => absurd hev h⟩
      · have hsig : sig = st.sig := by
          rw [Session.judged, hst] at hj
          exact (Option.some.inj hj).symm
        subst hsig
        simp [Port.bounced, Port.unheld, Port.resettled, Session.clearAccumulators, recordIn, Verdict.counts]
      · rw [hattach.2, hverdict.2, hgroup, add_assoc]
        rfl
      · have hsig : sig = st.sig := by
          rw [Session.judged, hst] at hj
          exact (Option.some.inj hj).symm
        have hentry := State.entry_recordVerdict hses' hbn (e := e) he hpin sig (v := .rejected) rfl
        subst hsig
        refine (congrArg (fun o : Option Entry => o.any fun f =>
          f.tallies == e.tallies.modify (Tally.fold false) st.sig) hentry).trans ?_
        exact beq_self_eq_true _
    · have hother : x.held ≠ some .evaluating ∨ x.judged = none := by
        by_cases hev : x.held = some .evaluating
        · exact Or.inr (Option.eq_none_iff_forall_ne_some.mpr fun sig hj => hh ⟨hev, sig, hj⟩)
        · exact Or.inl hev
      have hheld : (s.modPins p fun x => { x with att := true }).heldPhase p = x.held := by
        unfold State.heldPhase
        rw [hses']
        rfl
      rw [State.returnInHold_other hses' hother,
        State.reAttach_calm (s := s.modPins p fun x => { x with att := true }) hv, hheld] at hx hl
      have hattach := raisedIn_raisePort ((s.modPins p fun x => { x with att := true }).modPort p fun q =>
        if x.held = some .steady then q.rejoined else q.unheld.resettled) p .attach
      refine ⟨_, hx, hl.1, hl.2.1, ?_⟩
      rw [State.port_raisePort, State.port_modPort_same, hport]
      by_cases hst : x.held = some .steady
      · rw [if_pos hst]
        refine ⟨rfl, rfl, rfl, rfl, rfl, rfl, pending_raised hattach,
          fun h => absurd (hst.symm.trans h) (by decide), fun _ => ⟨?_, rfl, rfl, hattach.2⟩, fun _ h => absurd hst h⟩
        simp [Port.rejoined, Port.unheld, hses]
      · rw [if_neg hst]
        refine ⟨rfl, rfl, rfl, rfl, rfl, rfl, pending_raised hattach, fun h st hcur => ?_, fun h => absurd h hst,
          fun _ _ => ⟨?_, rfl, rfl, hattach.2⟩⟩
        · exact absurd ⟨h, st.sig, by rw [Session.judged, hcur]⟩ hh
        · simp [Port.resettled, Port.unheld, hses]

end Sys2Proof.Machine
end

section
/-! The ends of the hold window, of POWERING, of the cool-down and of the toggle-off. -/

namespace Sys2Proof.Machine

variable {s t : State} {p : PortId} {q : Port} {x : Session} {r : RePresent}

/-! ### The end of the hold window -/

/-- The lines of an idle port go back to P: at the port itself. -/
theorem State.backToP_frame (h : s.queued p = false) :
    (s.backToP p).port p = (if (s.port p).atOnce .P = true then s.port p else (s.port p).requestRePresent .P .holdExpiry)
      ∧ (s.backToP p).grant p = (if (s.port p).atOnce .P = true then min (s.grant p) 500 else s.grant p)
      ∧ (s.backToP p).group (portGroup p) = s.group (portGroup p) ∧ (s.backToP p).memory = s.memory := by
  unfold State.backToP
  by_cases hat : (s.port p).atOnce .P = true
  · rw [if_pos hat, if_pos hat, if_pos hat]
    by_cases hlt : baseGrant < s.grant p
    · have hq : (s.fallGrant p baseGrant).queued p = false := by
        unfold State.queued
        rw [State.queue_fallGrant]
        exact h
      have r := released hq
      rw [if_pos hlt, Nat.min_eq_right (show 500 ≤ s.grant p from Nat.le_of_lt hlt)]
      exact ⟨r.port.trans (State.port_fallGrant _ _ _ _), r.grant.trans (State.grant_fallGrant_same _ _ _),
        r.group.trans (congrArg (fun n : Notices => n.groups[(portGroup p).val]) (State.notices_fallGrant _ _ _)),
        r.memory.trans (State.memory_fallGrant _ _ _)⟩
    · rw [if_neg hlt, Nat.min_eq_left (show s.grant p ≤ 500 from Nat.not_lt.mp hlt)]
      exact ⟨rfl, rfl, rfl, rfl⟩
  · rw [if_neg hat, if_neg hat, if_neg hat]
    exact ⟨State.port_modPort_same _ _ _, rfl, rfl, rfl⟩

theorem exec_holdExpiry (ht : (s.port p).timers.hold.isSome = true) (hs : (s.port p).state = .hold) :
    exec (.holdExpiry p) s = .next ((s.modTimers p fun x => { x with hold := none }).holdEnd p) := by
  obtain ⟨left, hleft⟩ := Option.isSome_iff_exists.mp ht
  refine congrArg Host.Outcome.next ?_
  rw [show (s.timers p).hold = some left from hleft]
  exact if_pos (by rw [State.port_modTimers_same]; exact hs)

/-- What a session's end leaves of the lines, the counts and the state. -/
theorem Port.requestRePresent_rest (q : Port) (target : Sig) (who : Requester) :
    (q.requestRePresent target who).state = q.state ∧ (q.requestRePresent target who).switchOn = q.switchOn
      ∧ (q.requestRePresent target who).counter = q.counter ∧ (q.requestRePresent target who).tripCount = q.tripCount
      ∧ { (q.requestRePresent target who).timers with probe := q.timers.probe } = q.timers
      ∧ (q.session = none → (q.requestRePresent target who).session = none) := by
  unfold Port.requestRePresent
  split
  · cases q.rePresent with
    | none =>
      refine ⟨rfl, rfl, rfl, rfl, rfl, fun h => ?_⟩
      simp [Port.startRePresent, Port.goNeutral, h]
    | some r => exact ⟨rfl, rfl, rfl, rfl, rfl, id⟩
  · exact ⟨rfl, rfl, rfl, rfl, rfl, id⟩

/-- The port unit after its hold window, before its lines go back to P. -/
def Port.holdOver (q : Port) : Port :=
  { q with
    state := .idle, session := none
    timers := { q.timers with settle := none, identityWait := none, hold := none, evaluation := none } }

/-- Settles O45: the hold window's expiry ends the session and takes the lines back to P. -/
theorem holdExpiryEndsTheSession : Obligations.HoldExpiryEndsTheSession := by
  unfold Obligations.HoldExpiryEndsTheSession
  intro s p hlines ht hs x hses
  have hx := exec_holdExpiry ht hs
  have hl := local_of_exec (p := p) (r := 0) (by simp [portEvents]) hx
  have hsw : (s.port p).switchOn = true := by
    rw [(hlines.1 p).1, hs]
    rfl
  have hport := State.port_modTimers_same s p fun x => { x with hold := none }
  have hend : ((((s.modTimers p fun x => { x with hold := none }).endSession p).setPortState p .idle).raisePort p
      .detach).port p = (s.port p).holdOver := by
    rw [State.port_raisePort, State.setPortState, State.port_modPort_same, State.port_endSession_same, hport]
    rfl
  have hgrant : ((((s.modTimers p fun x => { x with hold := none }).endSession p).setPortState p .idle).raisePort p
      .detach).grant p = s.grant p := by
    rw [State.endSession_eq, State.unbindSession_eq]
    rfl
  have hgroup : RaisedIn s ((((s.modTimers p fun x => { x with hold := none }).endSession p).setPortState p
      .idle).raisePort p .detach) (portGroup p) .detach := by
    refine (raisedIn_raisePort _ p .detach).congr ?_ rfl
    rw [State.endSession_eq, State.unbindSession_eq]
    rfl
  have hmem : ((((s.modTimers p fun x => { x with hold := none }).endSession p).setPortState p .idle).raisePort p
      .detach).memory = s.memory.unbind (s.port p).bound := by
    rw [State.endSession_eq, State.unbindSession_eq, hport]
    rfl
  have hq : ((((s.modTimers p fun x => { x with hold := none }).endSession p).setPortState p .idle).raisePort p
      .detach).queued p = false := by
    rw [State.endSession_eq]
    exact State.queued_withdraw_same _ _
  obtain ⟨hbp, hbg, hbn, hbm⟩ := State.backToP_frame hq
  rw [hend] at hbp hbg
  rw [hgrant] at hbg
  obtain ⟨r1, r2, r3, r4, r5, r6⟩ := Port.requestRePresent_rest (s.port p).holdOver .P .holdExpiry
  refine ⟨_, hx, hl.1, hl.2.1, ?state, ?session, ?hold, ?counter, ?trips, hgroup.congr rfl hbn, fun n hb e he => ?entry,
    ?recency, fun r hr => ?flight, fun hr c hc hne => ?start, fun hr hc => ?rest⟩
  all_goals unfold State.holdEnd
  case state =>
    rw [hbp]
    split
    · rfl
    · exact r1
  case session =>
    rw [hbp]
    split
    · rfl
    · exact r6 rfl
  case hold =>
    rw [hbp]
    split
    · rfl
    · exact congrArg Timers.hold r5
  case counter =>
    rw [hbp]
    split
    · rfl
    · exact r3
  case trips =>
    rw [hbp]
    split
    · rfl
    · exact r4
  case entry =>
    unfold State.entry
    rw [hbm, hmem, show (s.port p).bound = some n by simp [Port.bound, hses, hb]]
    exact (ProfileMemory.entry_modEntry_same _ _ _).trans (congrArg (Option.map _) he)
  case recency =>
    rw [hbm, hmem]
    cases (s.port p).bound <;> rfl
  case flight =>
    rw [if_neg (Port.atOnce_P_flight (q := (s.port p).holdOver) hr)] at hbp hbg
    rw [hbp, hbg, Port.request_P_flight (q := (s.port p).holdOver) hsw hr]
    exact ⟨rfl, rfl⟩
  case start =>
    rw [if_neg fun h : (s.port p).holdOver.atOnce .P = true => hne (Option.some.inj (hc.symm.trans (Port.atOnce_P.mp h).2))] at hbp hbg
    rw [hbp, hbg, Port.request_P_start (q := (s.port p).holdOver) hsw hr]
    exact ⟨rfl, congrArg (fun o => some (⟨.P, 50, false, .holdExpiry, o⟩ : RePresent)) hc, rfl⟩
  case rest =>
    rw [if_pos (Port.atOnce_P (q := (s.port p).holdOver) |>.mpr ⟨hr, hc⟩)] at hbp hbg
    rw [hbp, hbg]
    exact ⟨hc, hr, rfl⟩

end Sys2Proof.Machine
end

section
/-! POWERING: how it is entered and what its end leads to. -/

namespace Sys2Proof.Machine

variable {s t : State} {p : PortId} {q : Port} {x : Session} {r : RePresent}

/-! ### The four ends of POWERING -/

/-- The power-good timer stopped. -/
def Port.goodNow (q : Port) : Port := { q with timers := { q.timers with powerGood := none } }

/-- The port unit at the end of POWERING, P presented. -/
def Port.litOnP (q : Port) : Port := q.goodNow.present .P

/-- The port unit of a removable port at the end of POWERING. -/
def Port.idled (q : Port) : Port := { q.litOnP with state := .idle }

/-- The port unit of a fixed port that opens its session at the end of POWERING. -/
def Port.fixedOpen (q : Port) : Port := if q.pins.lok then q.litOnP.open else q.litOnP.open.startLink

/-- The port unit whose kept session resumes at the end of POWERING. -/
def Port.resumed (x : Session) (q : Port) : Port :=
  { q.goodNow.requestRePresent (x.presented.getD .P) .resumption with
    state := .occupied
    session := (q.goodNow.requestRePresent (x.presented.getD .P) .resumption).session.map fun y =>
      { y with
        phase := some .representing
        presented := none
        target := (q.goodNow.requestRePresent (x.presented.getD .P) .resumption).rePresent.map (·.target)
        resumptionWindow := true } }

theorem State.powerGoodEnd_idle (hf : (s.port p).fixed = false) (ha : (s.port p).pins.att = false) :
    s.powerGoodEnd p = s.modPort p Port.idled := by
  unfold State.powerGoodEnd
  simp only [hf, ha, Bool.false_eq_true, if_false]
  unfold State.presentP State.setPortState State.modTimers
  rw [State.modPort_modPort, State.modPort_modPort]
  rfl

theorem State.powerGoodEnd_attached (hf : (s.port p).fixed = false) (ha : (s.port p).pins.att = true) :
    s.powerGoodEnd p = (s.modPort p Port.idled).openRemovable p := by
  unfold State.powerGoodEnd
  simp only [hf, ha, Bool.false_eq_true, if_false, if_true]
  unfold State.presentP State.setPortState State.modTimers
  rw [State.modPort_modPort, State.modPort_modPort]
  rfl

theorem State.powerGoodEnd_fixed (hf : (s.port p).fixed = true) (hx : (s.port p).session = none) :
    s.powerGoodEnd p = (s.modPort p Port.fixedOpen).raisePort p .attach := by
  unfold State.powerGoodEnd
  simp only [hf, hx, if_true]
  unfold State.openFixed State.presentP State.modTimers
  rw [State.openSession_eq, State.modPort_raisePort, State.modPort_modPort, State.modPort_modPort, State.modPort_modPort]
  rfl

theorem State.powerGoodEnd_resumes (hf : (s.port p).fixed = true) (hx : (s.port p).session = some x) :
    s.powerGoodEnd p = s.modPort p (Port.resumed x) := by
  unfold State.powerGoodEnd
  simp only [hf, hx, if_true]
  unfold State.resume State.modTimers
  rw [State.modPort_modPort]
  rfl

theorem Port.fixedOpen_eq (q : Port) :
    q.fixedOpen = { q.litOnP.open with timers := { q.litOnP.open.timers with
      link := if q.pins.lok then q.timers.link
        else if q.policy.linkTimeout = 0 then none else some (40 * 2 ^ (q.policy.linkTimeout - 1)) } } := by
  unfold Port.fixedOpen
  cases q.pins.lok
  · simp [Port.startLink, linkTime_eq, Port.litOnP, Port.open, Port.present, Port.goodNow]
  · rfl

/-! ### Power-good -/

theorem exec_powerGoodExpiry (ht : (s.port p).timers.powerGood.isSome = true) (hs : (s.port p).state = .powering) :
    exec (.powerGoodExpiry p) s = .next ((s.modTimers p fun x => { x with powerGood := none }).powerGoodEnd p) := by
  obtain ⟨left, hleft⟩ := Option.isSome_iff_exists.mp ht
  refine congrArg Host.Outcome.next ?_
  rw [show (s.timers p).powerGood = some left from hleft]
  exact if_pos (by rw [State.port_modTimers_same]; exact hs)

theorem Port.request_start (hsw : q.switchOn = true) (hr : q.rePresent = none) (c : Sig) (who : Requester) :
    q.requestRePresent c who
      = { q.goNeutral with rePresent := some ⟨q.turned c, 50, q.hubTurns c, who, q.presented⟩ } := by
  unfold Port.requestRePresent
  rw [if_pos hsw, hr]
  rfl

/-- Only a fixed port keeps a session through RECOVERY and POWERING. -/
theorem Port.sessionLaw.session_none_of_removable (h : q.sessionLaw) (hs : q.state = .powering ∨ q.state = .recovery)
    (hf : q.fixed = false) : q.session = none := by
  unfold Port.sessionLaw at h
  cases hx : q.session with
  | none => rfl
  | some x =>
    rcases hs with hs | hs <;>
    · rw [hs, hx] at h
      cases hf.symm.trans h.1

/-- Settles O46: POWERING ends in IDLE, in a new session, or in a kept session's resumption. -/
theorem powerGoodExpiryEndsPowering : Obligations.PowerGoodExpiryEndsPowering := by
  unfold Obligations.PowerGoodExpiryEndsPowering
  intro s p hlines hsession hcover hs ht hv
  have hx := exec_powerGoodExpiry ht hs
  have hl := local_of_exec (p := p) (r := 0) (by simp [portEvents]) hx
  have hport : (s.modTimers p fun x => { x with powerGood := none }).port p = (s.port p).goodNow :=
    State.port_modTimers_same s p fun x => { x with powerGood := none }
  refine ⟨fun hf => ?removable, fun hf hnone => ?fixed, fun hf x hses c hc => ?resumes⟩
  case removable =>
    have hnone := (hsession p).session_none_of_removable (Or.inl hs) hf
    cases ha : (s.port p).pins.att with
    | false =>
      rw [State.powerGoodEnd_idle (by rw [hport]; exact hf) (by rw [hport]; exact ha)] at hx hl
      refine ⟨_, hx, hl.1, hl.2.1, rfl, rfl, ?_⟩
      rw [State.port_modPort_same, hport]
      refine ⟨rfl, rfl, fun _ => ⟨rfl, ?_, rfl⟩, fun h => absurd h (by decide)⟩
      simp [Port.idled, Port.litOnP, Port.present, Port.goodNow, hnone]
    | true =>
      rw [State.powerGoodEnd_attached (by rw [hport]; exact hf) (by rw [hport]; exact ha),
        State.openRemovable_calm
          (s := (s.modTimers p fun x => { x with powerGood := none }).modPort p Port.idled) hv] at hx hl
      refine ⟨_, hx, hl.1, hl.2.1, rfl, rfl, ?_⟩
      unfold State.phase
      rw [State.port_raisePort, State.port_modPort_same, State.port_modPort_same, hport, hnone]
      exact ⟨rfl, rfl, fun h => absurd h (by decide), fun _ => ⟨rfl, rfl, rfl, rfl, rfl,
        (raisedIn_raisePort _ p .attach).congr rfl rfl⟩⟩
  case fixed =>
    rw [State.powerGoodEnd_fixed (by rw [hport]; exact hf) (by rw [hport]; exact hnone)] at hx hl
    refine ⟨_, hx, hl.1, hl.2.1, rfl, rfl, ?_⟩
    unfold State.phase
    rw [State.port_raisePort, State.port_modPort_same, hport, Port.fixedOpen_eq]
    exact ⟨rfl, rfl, rfl, rfl, rfl, rfl, (raisedIn_raisePort _ p .attach).congr rfl rfl, rfl⟩
  case resumes =>
    have hon : (s.port p).switchOn = true := by
      rw [(hlines.1 p).1, hs]
      rfl
    obtain ⟨hpres, hre⟩ := (hcover p).2.2.1 hs
    rw [State.powerGoodEnd_resumes (x := x) (by rw [hport]; exact hf) (by rw [hport]; exact hses)] at hx
    refine ⟨_, hx, ⟨fun r hr => ?_, rfl, rfl, rfl, rfl, rfl, rfl⟩, ?_⟩
    · rw [State.port_modPort_ne _ _ _ _ hr]
      exact State.port_modTimers_ne _ _ _ _ hr
    · rw [State.port_modPort_same, hport]
      unfold Port.resumed
      rw [Port.request_start (q := (s.port p).goodNow.goodNow) hon hre]
      refine ⟨rfl, rfl, rfl, ?_, ?_⟩
      · simp [hc, hpres, Port.turned, Port.hubTurns, Port.goodNow]
      · simp [Port.goNeutral, Port.goodNow, hses, Session.follow]
        split <;> simp

end Sys2Proof.Machine
end

section
/-! The commands and events that lead to POWERING, and the refusals of the port commands. -/

namespace Sys2Proof.Machine

variable {s t : State} {p : PortId} {q : Port} {x : Session} {r : RePresent}

/-! ### POWERING entered from FAULT and RECOVERY -/

theorem Port.resumed_rest (x : Session) (q : Port) :
    (q.resumed x).switchOn = q.switchOn ∧ (q.resumed x).tripCount = q.tripCount
      ∧ (q.resumed x).timers.coolDown = q.timers.coolDown ∧ (q.resumed x).timers.toggleOff = q.timers.toggleOff
      ∧ (q.resumed x).state = .occupied := by
  obtain ⟨-, hsw, -, htrip, htimers, -⟩ := q.goodNow.requestRePresent_rest (x.presented.getD .P) .resumption
  have hcool := congrArg Timers.coolDown htimers
  have htoggle := congrArg Timers.toggleOff htimers
  exact ⟨hsw, htrip, hcool, htoggle, rfl⟩

/-- The end of POWERING at a port that is no victim. -/
theorem State.powerGoodEnd_calm (hv : s.victim p = false) :
    (s.powerGoodEnd p).budget = s.budget ∧ ((s.powerGoodEnd p).port p).switchOn = (s.port p).switchOn
      ∧ ((s.powerGoodEnd p).port p).tripCount = (s.port p).tripCount
      ∧ ((s.powerGoodEnd p).port p).timers.coolDown = (s.port p).timers.coolDown
      ∧ ((s.powerGoodEnd p).port p).timers.toggleOff = (s.port p).timers.toggleOff
      ∧ (((s.powerGoodEnd p).port p).state = .idle ∨ ((s.powerGoodEnd p).port p).state = .occupied) := by
  cases hf : (s.port p).fixed with
  | false =>
    cases ha : (s.port p).pins.att with
    | false =>
      rw [State.powerGoodEnd_idle hf ha, State.port_modPort_same]
      exact ⟨rfl, rfl, rfl, rfl, rfl, Or.inl rfl⟩
    | true =>
      rw [State.powerGoodEnd_attached hf ha, State.openRemovable_calm (s := s.modPort p Port.idled) hv,
        State.port_raisePort, State.port_modPort_same, State.port_modPort_same]
      exact ⟨rfl, rfl, rfl, rfl, rfl, Or.inr rfl⟩
  | true =>
    cases hx : (s.port p).session with
    | none =>
      rw [State.powerGoodEnd_fixed hf hx, State.port_raisePort, State.port_modPort_same, Port.fixedOpen_eq]
      exact ⟨rfl, rfl, rfl, rfl, rfl, Or.inr rfl⟩
    | some x =>
      rw [State.powerGoodEnd_resumes hf hx, State.port_modPort_same]
      obtain ⟨h1, h2, h3, h4, h5⟩ := (s.port p).resumed_rest x
      exact ⟨rfl, h1, h2, h3, h4, Or.inr h5⟩

/-- POWERING entered at a port that is off and no victim. -/
theorem State.enterPowering_calm (hv : s.victim p = false) (hpres : (s.port p).presented = none) :
    (s.enterPowering p).budget = s.budget ∧ ((s.enterPowering p).port p).switchOn = true
      ∧ ((s.enterPowering p).port p).tripCount = (s.port p).tripCount
      ∧ ((s.enterPowering p).port p).timers.coolDown = (s.port p).timers.coolDown
      ∧ ((s.enterPowering p).port p).timers.toggleOff = (s.port p).timers.toggleOff
      ∧ ((s.port p).policy.powerGood ≠ 0 → ((s.enterPowering p).port p).state = .powering
          ∧ (s.enterPowering p).notices = s.notices ∧ ((s.enterPowering p).port p).session = (s.port p).session
          ∧ ((s.enterPowering p).port p).presented = none
          ∧ ((s.enterPowering p).port p).timers.powerGood = some (s.port p).policy.powerGood)
      ∧ ((s.port p).policy.powerGood = 0 → ((s.enterPowering p).port p).state = .idle
          ∨ ((s.enterPowering p).port p).state = .occupied) := by
  rw [State.enterPowering_eq]
  by_cases h0 : (s.port p).policy.powerGood = 0
  · obtain ⟨hb, h1, h2, h3, h4, h5⟩ := State.powerGoodEnd_calm (s := s.modPort p Port.powered) hv
    rw [State.port_modPort_same] at h1 h2 h3 h4
    rw [if_pos h0]
    exact ⟨hb, h1, h2, h3, h4, fun h => absurd h0 h, fun _ => h5⟩
  · rw [if_neg h0, State.port_modPort_same]
    exact ⟨rfl, rfl, rfl, rfl, rfl, fun _ => ⟨rfl, rfl, rfl, hpres, rfl⟩, fun h => absurd h h0⟩

theorem exec_coolDownExpiry (ht : (s.port p).timers.coolDown.isSome = true) (hs : (s.port p).state = .fault) :
    exec (.coolDownExpiry p) s = .next (State.coolDownEnd p (s.modTimers p fun x => { x with coolDown := none })) := by
  obtain ⟨left, hleft⟩ := Option.isSome_iff_exists.mp ht
  refine congrArg Host.Outcome.next ?_
  rw [show (s.timers p).coolDown = some left from hleft]
  exact if_pos (by rw [State.port_modTimers_same]; exact hs)

theorem exec_toggleOffExpiry (ht : (s.port p).timers.toggleOff.isSome = true) (hs : (s.port p).state = .recovery) :
    exec (.toggleOffExpiry p) s = .next ((s.modTimers p fun x => { x with toggleOff := none }).enterPowering p) := by
  obtain ⟨left, hleft⟩ := Option.isSome_iff_exists.mp ht
  refine congrArg Host.Outcome.next ?_
  rw [show (s.timers p).toggleOff = some left from hleft]
  exact if_pos (by rw [State.port_modTimers_same]; exact hs)

/-- Settles O47: the cool-down leads to POWERING or to quarantine, the toggle-off to POWERING. -/
theorem coolDownAndToggleOffLeadToPowering : Obligations.CoolDownAndToggleOffLeadToPowering := by
  unfold Obligations.CoolDownAndToggleOffLeadToPowering
  intro s p hlines _ _ hv
  have off : (s.port p).state.isOn = false → (s.port p).presented = none := fun h =>
    ((hlines.1 p).2.1 ((hlines.1 p).1.trans h)).1
  refine ⟨fun ht hs => ⟨fun hle => ?powers, fun hlt => ?quarantines⟩, fun ht hs => ?toggles⟩
  case powers =>
    have hx := exec_coolDownExpiry ht hs
    have hl := local_of_exec (p := p) (r := 0) (by simp [portEvents]) hx
    have hport := State.port_modTimers_same s p fun x => { x with coolDown := none }
    rw [State.coolDownEnd, if_pos (by rw [hport]; exact hle)] at hx hl
    obtain ⟨hb, hsw, htrip, hcool, -, hwait, hnow⟩ :=
      State.enterPowering_calm (s := s.modTimers p fun x => { x with coolDown := none }) (p := p) hv
        (by rw [hport]; exact off (by rw [hs]; rfl))
    rw [hport] at htrip hcool hwait hnow
    refine ⟨_, hx, hl.1, hl.2.1, hb, hsw, htrip, hcool, fun h => ?_, hnow⟩
    obtain ⟨h1, h2, -, h4, h5⟩ := hwait h
    exact ⟨h1, h2, h5, h4⟩
  case quarantines =>
    have hx := exec_coolDownExpiry ht hs
    have hl := local_of_exec (p := p) (r := 0) (by simp [portEvents]) hx
    have hport := State.port_modTimers_same s p fun x => { x with coolDown := none }
    rw [State.coolDownEnd, if_neg (by rw [hport]; exact Nat.not_le.mpr hlt)] at hx hl
    refine ⟨_, hx, hl.1, hl.2.1, rfl, ?_, (raisedIn_raisePort _ p .quarantine).congr rfl rfl⟩
    rw [State.overcurrentQuarantine, State.port_raisePort, State.port_modPort_same, hport]
  case toggles =>
    have hx := exec_toggleOffExpiry ht hs
    have hl := local_of_exec (p := p) (r := 0) (by simp [portEvents]) hx
    have hport := State.port_modTimers_same s p fun x => { x with toggleOff := none }
    obtain ⟨hb, hsw, htrip, -, htoggle, hwait, hnow⟩ :=
      State.enterPowering_calm (s := s.modTimers p fun x => { x with toggleOff := none }) (p := p) hv
        (by rw [hport]; exact off (by rw [hs]; rfl))
    rw [hport] at htrip htoggle hwait hnow
    exact ⟨_, hx, hl.1, hl.2.1, hb, hsw, htrip, htoggle, hwait, hnow⟩

/-! ### Enable Port -/

/-- A shed that finds P presented: the session goes to STEADY under the shed with the base as its grant. -/
theorem State.shedOccupied_rest (hp : (s.port p).presented = some .P) (hr : (s.port p).rePresent = none) :
    s.shedOccupied p = (((s.withdraw p).modPort p Port.shedNow).fallGrant p baseGrant).enterSteady p := by
  rw [State.shedOccupied_eq, State.port_modPort_same]
  exact if_pos (Port.atOnce_P (q := (s.port p).shedNow) |>.mpr ⟨hr, hp⟩)

theorem State.shedOccupied_rest_frame (hp : (s.port p).presented = some .P) (hr : (s.port p).rePresent = none) :
    (s.shedOccupied p).port p = (s.port p).shedNow.steadied ∧ (s.shedOccupied p).grant p = 500
      ∧ (s.shedOccupied p).memory = s.memory ∧ Elsewhere p s (s.shedOccupied p) := by
  rw [State.shedOccupied_rest hp hr, State.enterSteady_eq]
  refine ⟨?_, ?_, State.memory_fallGrant _ _ _, ?_⟩
  · rw [State.port_raisePort, State.port_modPort_same, State.port_fallGrant, State.port_modPort_same, State.port_withdraw]
  · exact State.grant_fallGrant_same _ _ _
  · exact ((((Elsewhere.withdraw s p).trans (Elsewhere.modPort _ p _)).trans (Elsewhere.fallGrant _ p _)).trans
      (Elsewhere.modPort _ p _))

/-- The end of POWERING at a port with no session and the base as its grant. -/
theorem State.powerGoodEnd_new (hnone : (s.port p).session = none) (hg : s.grant p = 500) :
    Elsewhere p s (s.powerGoodEnd p) ∧ (s.powerGoodEnd p).grant p = 500 ∧ (s.powerGoodEnd p).memory = s.memory
      ∧ ((s.powerGoodEnd p).port p).policy = (s.port p).policy ∧ ((s.powerGoodEnd p).port p).fixed = (s.port p).fixed
      ∧ ((s.powerGoodEnd p).port p).switchOn = (s.port p).switchOn
      ∧ ((s.powerGoodEnd p).port p).tripCount ≤ (s.port p).tripCount
      ∧ (((s.powerGoodEnd p).port p).state = .idle ∨ ((s.powerGoodEnd p).port p).state = .occupied)
      ∧ ((s.powerGoodEnd p).port p).presented = some .P ∧ ((s.powerGoodEnd p).port p).timers.powerGood = none := by
  cases hf : (s.port p).fixed with
  | true =>
    rw [State.powerGoodEnd_fixed hf hnone, State.port_raisePort, State.port_modPort_same, Port.fixedOpen_eq]
    exact ⟨Elsewhere.modPort s p _, hg, rfl, rfl, hf, rfl, Nat.le_refl _, Or.inr rfl, rfl, rfl⟩
  | false =>
    cases ha : (s.port p).pins.att with
    | false =>
      rw [State.powerGoodEnd_idle hf ha, State.port_modPort_same]
      exact ⟨Elsewhere.modPort s p _, hg, rfl, rfl, hf, rfl, Nat.le_refl _, Or.inl rfl, rfl, rfl⟩
    | true =>
      rw [State.powerGoodEnd_attached hf ha]
      cases hv : s.victim p with
      | false =>
        rw [State.openRemovable_calm (s := s.modPort p Port.idled) hv, State.port_raisePort, State.port_modPort_same,
          State.port_modPort_same]
        exact ⟨(Elsewhere.modPort s p _).trans (Elsewhere.modPort _ p _), hg, rfl, rfl, hf, rfl, Nat.le_refl _,
          Or.inr rfl, rfl, rfl⟩
      | true =>
        have hopen : (((s.modPort p Port.idled).modPort p Port.open).raisePort p .attach).port p
            = (s.port p).idled.open := by
          rw [State.port_raisePort, State.port_modPort_same, State.port_modPort_same]
        obtain ⟨hport, hgrant, hmem, he⟩ := State.shedOccupied_rest_frame
          ((congrArg Port.presented hopen).trans rfl) ((congrArg Port.rePresent hopen).trans rfl)
        rw [State.openRemovable_victim (s := s.modPort p Port.idled) hv, hport, hopen]
        exact ⟨((Elsewhere.modPort s p _).trans (Elsewhere.modPort _ p _)).trans he, hgrant, hmem, rfl, hf, rfl,
          Nat.zero_le _, Or.inr rfl, rfl, rfl⟩

theorem exec_enablePort (tag : Byte) (hr : s.host.inReset = false) :
    exec (.enablePort tag (BitVec.ofNat 8 p.val)) s = .next (
      if (s.port p).state ≠ .disabled then s.refuse .wrongState tag 0x12
      else if s.budget.pendingTotal.isSome then s.refuse .budgetBusy tag 0x12
      else if s.headroom < baseGrant then s.refuse .noBudget tag 0x12
      else (s.enable p).respondWith tag 0x12 (·.actionData p)) :=
  congrArg Host.Outcome.next ((State.taking_running _ _ hr).trans (State.onPort_code _ _ _ _ _))

theorem State.enable_othersKept (s : State) (p : PortId) : OthersKept p s (s.enable p) := by
  rw [State.enable_eq]
  have h : Acts p (s.modPort p Port.enabledOn) ((s.setGrant p baseGrant).modPort p Port.enabledOn) :=
    (Acts.refl p (s.modPort p Port.enabledOn)).setGrant baseGrant
  refine Acts.othersKept_modPort (f := Port.enabledOn) ?_
  split
  · exact h.powerGoodEnd
  · exact h

/-- Settles O25: a port that leaves DISABLED holds the base and enters POWERING, which a wait of 0 ends at once. -/
theorem enablePortGrantsTheBase : Obligations.EnablePortGrantsTheBase := by
  unfold Obligations.EnablePortGrantsTheBase
  intro s tag p hr hsession hlines hs hb hh
  have hx := exec_enablePort (p := p) tag hr
  rw [if_neg (not_not.mpr hs), hb, if_neg (by simp), if_neg (show ¬s.headroom < baseGrant from Nat.not_lt.mpr hh)] at hx
  have hnone : (s.port p).session = none := by
    have := hsession p
    unfold Port.sessionLaw at this
    rwa [hs] at this
  have hpres : (s.port p).presented = none :=
    ((hlines.1 p).2.1 ((hlines.1 p).1.trans (by rw [hs]; rfl))).1
  have hport : ((s.setGrant p baseGrant).modPort p Port.enabledOn).port p = (s.port p).enabledOn :=
    State.port_modPort_same _ _ _
  have hk := s.enable_othersKept p
  have he0 : Elsewhere p s ((s.setGrant p baseGrant).modPort p Port.enabledOn) :=
    (Elsewhere.setGrant s p _).trans (Elsewhere.modPort _ p _)
  refine ⟨_, hx, ?_⟩
  unfold State.respondWith
  by_cases h0 : (s.port p).policy.powerGood = 0
  · obtain ⟨he, hgrant, hmem, hpol, hfix, hsw, htrip, hst, hp, hpg⟩ :=
      State.powerGoodEnd_new (s := (s.setGrant p baseGrant).modPort p Port.enabledOn) (p := p)
        (by rw [hport]; exact hnone) (State.grant_setGrant_same _ _ _)
    rw [hport] at hpol hfix hsw htrip
    have heq : s.enable p = ((s.setGrant p baseGrant).modPort p Port.enabledOn).powerGoodEnd p := by
      rw [State.enable_eq, if_pos h0]
    rw [heq] at hk ⊢
    refine ⟨hgrant, hpol, hfix, hsw, htrip, replied_respond _ _ _ _ _, hk, fun q hq => ?_, hmem,
      fun h => absurd h0 h, fun _ => ⟨hst, hp, hpg⟩⟩
    obtain ⟨h1, h2, -⟩ := he0.trans he q hq
    exact ⟨h1, h2⟩
  · have heq : s.enable p = (s.setGrant p baseGrant).modPort p Port.enabledOn := by rw [State.enable_eq, if_neg h0]
    rw [heq] at hk ⊢
    rw [State.port_respond, hport]
    refine ⟨State.grant_setGrant_same _ _ _, rfl, rfl, rfl, Nat.le_refl _, replied_respond _ _ _ _ _, hk, fun q hq => ?_,
      rfl, fun _ => ⟨rfl, hpres, rfl, hnone, rfl⟩, fun h => absurd h h0⟩
    obtain ⟨h1, h2, -⟩ := he0 q hq
    exact ⟨h1, h2⟩

/-! ### Refusals -/

/-- A port command with a port number above 7 writes BAD_PARAM. -/
theorem refused_above {c : Instr} {tag code b : Byte} (hb : 7 < b.toNat) (f : PortId → State)
    (hc : exec c s = .next (s.onPort tag code b f)) :
    ∃ t, exec c s = .next t ∧ SameBlocks s t ∧ t.host.response.map (·.status) = some .badParam :=
  ⟨_, hc.trans (congrArg _ (State.onPort_above _ _ _ _ _ hb)), sameBlocks_refuse _ _ _ _, rfl⟩

theorem refused_of_exec {c : Instr} {st : Status} {tag code : Byte} (hc : exec c s = .next (s.refuse st tag code)) :
    ∃ t, exec c s = .next t ∧ SameBlocks s t ∧ Replied t st tag code [] :=
  ⟨_, hc, sameBlocks_refuse _ _ _ _, replied_refuse _ _ _ _⟩

theorem exec_postIdentity (tag : Byte) (hr : s.host.inReset = false) (v d r : Half) :
    exec (.postIdentity tag (BitVec.ofNat 8 p.val) v d r) s = .next (
      match (s.port p).state.takesIdentity, (s.port p).session with
      | true, some x =>
        (s.takeIdentity p x ⟨v, d, r⟩).respond (s.postStatus x ⟨v, d, r⟩) tag 0x15
          ((s.takeIdentity p x ⟨v, d, r⟩).identityData p s x ⟨v, d, r⟩)
      | _, _ => s.refuse .wrongState tag 0x15) :=
  congrArg Host.Outcome.next ((State.taking_running _ _ hr).trans (State.onPort_code _ _ _ _ _))

theorem exec_retryTrials (tag : Byte) (hr : s.host.inReset = false) :
    exec (.retryTrials tag (BitVec.ofNat 8 p.val)) s = .next (
      if (s.port p).state = .occupied ∧ s.phase p = some .steady then
        (s.retry p).respondWith tag 0x16 (·.actionData p)
      else s.refuse .wrongState tag 0x16) :=
  congrArg Host.Outcome.next ((State.taking_running _ _ hr).trans (State.onPort_code _ _ _ _ _))

theorem PortState.takesIdentity_iff (st : PortState) : st.takesIdentity = true ↔ st = .occupied ∨ st = .hold := by
  cases st <;> simp [PortState.takesIdentity]

/-- Settles O29: each refusal writes its status and changes nothing else. -/
theorem refusedCommandsChangeNothing : Obligations.RefusedCommandsChangeNothing := by
  unfold Obligations.RefusedCommandsChangeNothing
  intro s tag b p v d r rec hr
  have run : ∀ f : State → State, (.next (s.taking f) : Result) = .next (f s) := fun f =>
    congrArg Host.Outcome.next (State.taking_running _ _ hr)
  refine ⟨fun hb c hc => ?above, fun hs => ?enabled, fun hs hpend => ?busy, fun hs hpend hh => ?poor, fun hs c hc => ?off,
    fun h1 h2 => ?identity, fun h => ?retry⟩
  case above =>
    simp only [List.mem_cons, List.not_mem_nil, or_false] at hc
    rcases hc with rfl | rfl | rfl | rfl | rfl | rfl | rfl | rfl <;> exact refused_above hb _ (run _)
  case enabled => exact refused_of_exec ((exec_enablePort tag hr).trans (congrArg _ (if_pos hs)))
  case busy =>
    refine refused_of_exec ((exec_enablePort tag hr).trans (congrArg _ ?_))
    rw [if_neg (not_not.mpr hs), if_pos hpend]
  case poor =>
    refine refused_of_exec ((exec_enablePort tag hr).trans (congrArg _ ?_))
    rw [if_neg (not_not.mpr hs), hpend, if_neg (by simp),
      if_pos (show s.headroom < baseGrant from hh)]
  case off =>
    simp only [List.mem_cons, List.not_mem_nil, or_false] at hc
    rcases hc with rfl | rfl
    · exact ⟨_, (run _).trans (congrArg _ ((State.onPort_code _ _ _ _ _).trans (if_pos hs))), sameBlocks_refuse _ _ _ _, rfl⟩
    · exact ⟨_, (run _).trans (congrArg _ ((State.onPort_code _ _ _ _ _).trans (if_pos hs))), sameBlocks_refuse _ _ _ _, rfl⟩
  case identity =>
    refine refused_of_exec ((exec_postIdentity tag hr v d r).trans (congrArg _ ?_))
    have hno : (s.port p).state.takesIdentity = false :=
      Bool.eq_false_iff.mpr fun h => ((PortState.takesIdentity_iff _).mp h).elim h1 h2
    simp only [hno]
  case retry => exact refused_of_exec ((exec_retryTrials tag hr).trans (congrArg _ (if_neg h)))

end Sys2Proof.Machine
end

section
/-! What taking a step makes of a session: the part of it that a walk never touches, and the step it comes to. -/

namespace Sys2Proof.Machine

variable {s t : State} {p : PortId} {q : Port} {x : Session}

/-! ### What grants and walks leave of a port unit -/

/-- A session without what a granted step changes. -/
def Session.unphased (x : Session) : Session := { x with phase := none, target := none, presented := none }

/-- A session without what a walk of its sequence changes. -/
def Session.core (x : Session) : Session :=
  { x.unphased with current := none, remaining := [], sum := 0, count := 0, probeSeen := false }

/-- A port unit without what a granted step changes. -/
def Port.unlit (q : Port) : Port :=
  { q with
    presented := none, rePresent := none, detector := .off
    timers := { q.timers with probe := none }
    session := q.session.map Session.unphased }

/-- A port unit without what a walk of its sequence changes. -/
def Port.unwalked (q : Port) : Port :=
  { q with
    presented := none, rePresent := none, detector := .off, tripCount := 0
    timers := { q.timers with probe := none, evaluation := none }
    session := q.session.map Session.core }

theorem Session.unphased_follow (c : Option Sig) (x : Session) : (x.follow c).unphased = x.unphased := by
  unfold Session.follow
  split <;> rfl

theorem Session.core_of_unphased {y : Session} (h : y.unphased = x.unphased) : y.core = x.core :=
  congrArg (fun z : Session => { z with current := none, remaining := [], sum := 0, count := 0, probeSeen := false }) h

theorem Port.unlit_goNeutral (q : Port) : q.goNeutral.unlit = q.unlit := by
  unfold Port.unlit Port.goNeutral
  rw [Option.map_map]
  exact congrArg (fun o => ({ q with
    presented := none, rePresent := none, detector := .off
    timers := { q.timers with probe := none }
    session := o } : Port)) (congrArg (Option.map · q.session) (funext fun y => y.unphased_follow none))

theorem Port.unlit_present (q : Port) (c : Sig) : (q.present c).unlit = q.unlit := by
  unfold Port.unlit Port.present
  rw [Option.map_map]
  exact congrArg (fun o => ({ q with
    presented := none, rePresent := none, detector := .off
    timers := { q.timers with probe := none }
    session := o } : Port)) (congrArg (Option.map · q.session) (funext fun y => y.unphased_follow (some c)))

theorem Port.unlit_requestRePresent (q : Port) (c : Sig) (who : Requester) : (q.requestRePresent c who).unlit = q.unlit := by
  unfold Port.requestRePresent
  split
  · cases q.rePresent with
    | none => exact q.unlit_goNeutral
    | some r => rfl
  · rfl

/-- A change of the session's phase, target and presented signature alone. -/
theorem Port.unlit_mapSession (q : Port) (f : Session → Session) (hf : ∀ y, (f y).unphased = y.unphased) :
    ({ q with session := q.session.map f } : Port).unlit = q.unlit := by
  unfold Port.unlit
  rw [Option.map_map]
  exact congrArg (fun o => ({ q with
    presented := none, rePresent := none, detector := .off
    timers := { q.timers with probe := none }
    session := o } : Port)) (congrArg (Option.map · q.session) (funext hf))

theorem Port.unwalked_mapSession (q : Port) (f : Session → Session) (hf : ∀ y, (f y).core = y.core) :
    ({ q with session := q.session.map f } : Port).unwalked = q.unwalked := by
  unfold Port.unwalked
  rw [Option.map_map]
  exact congrArg (fun o => ({ q with
    presented := none, rePresent := none, detector := .off, tripCount := 0
    timers := { q.timers with probe := none, evaluation := none }
    session := o } : Port)) (congrArg (Option.map · q.session) (funext hf))

theorem Port.unlit_represents (q : Port) (c : Sig) (who : Requester) :
    ((q.requestRePresent c who).sessionRepresents).unlit = q.unlit := by
  rw [← q.unlit_requestRePresent c who]
  exact Port.unlit_mapSession _ _ fun _ => by exact rfl

/-- A port unit alike under grants is alike under walks. -/
theorem Port.unwalked_of_unlit {q' : Port} (h : q'.unlit = q.unlit) : q'.unwalked = q.unwalked := by
  have hs : ∀ r : Port, r.unwalked = { r.unlit with
      tripCount := 0
      timers := { r.unlit.timers with evaluation := none }
      session := r.unlit.session.map Session.core } := fun r => by
    unfold Port.unlit
    rw [Option.map_map]
    rfl
  rw [hs, hs, h]

/-! ### Release events -/

theorem State.unlit_grantHead (s : State) (e : QueueEntry) (rest : List QueueEntry) (p : PortId) :
    ((s.grantHead e rest).port p).unlit = (s.port p).unlit := by
  by_cases h : p = e.port
  · subst h
    rw [State.port_grantHead_same]
    exact Port.unlit_represents _ _ _
  · rw [State.port_grantHead_ne _ _ h]

/-- Whatever a release event grants, a port unit keeps all but its lines and its session's phase. -/
theorem State.unlit_afterRelease (s : State) (p : PortId) : (s.afterRelease.port p).unlit = (s.port p).unlit :=
  State.afterRelease_keeps (P := fun u => (u.port p).unlit = (s.port p).unlit)
    (fun u e rest h _ _ => (u.unlit_grantHead e rest p).trans h) (fun _ _ h _ _ => h) s rfl

theorem State.unlit_reportPresented (s : State) (p : PortId) (c : Sig) :
    ((s.reportPresented p c).port p).unlit = (s.port p).unlit := by
  unfold State.reportPresented
  split
  · exact (State.unlit_afterRelease _ p).trans (congrArg Port.unlit (State.port_fallGrant _ _ _ _))
  · rfl

theorem Port.session_of_unlit {q' : Port} (h : q'.unlit = q.unlit) (hx : q.session = some x) :
    ∃ y, q'.session = some y ∧ y.unphased = x.unphased := by
  have hs := congrArg Port.session h
  unfold Port.unlit at hs
  simp only [hx, Option.map_some, Option.map_eq_some_iff] at hs
  exact hs

/-! ### Walks -/

/-- Every kind that is pending stays pending. -/
def Pending (s t : State) : Prop := ∀ g m, (s.group g).pending &&& m ≠ 0 → (t.group g).pending &&& m ≠ 0

theorem Pending.refl (s : State) : Pending s s := fun _ _ => id

theorem Pending.raise (h : Pending s t) (g : GroupId) (k : Kind) : Pending s (t.raise g k) := fun g' m hm => by
  by_cases hg : g' = g
  · subst hg
    exact pending_kept (raisedIn_raise t g' k) (h g' m hm)
  · rw [State.group_raise_ne _ _ _ _ hg]
    exact h g' m hm

theorem Pending.afterRelease (h : Pending s t) : Pending s t.afterRelease :=
  State.afterRelease_keeps (P := Pending s) (fun u e rest hu _ _ => by
    exact Pending.raise (t := (u.setQueue rest).setGrant e.port e.sig.offered) hu (portGroup e.port) .grant)
    (fun u total hu _ _ => by
      exact Pending.raise
        (t := { u with budget := { u.budget with total := total, pendingTotal := none } }) hu deviceGroup .budgetApplied)
    t h

/-- What a walk at a port keeps of that port, of the notices and of the Profile Memory. -/
structure Walked (p : PortId) (s t : State) : Prop where
  port : (t.port p).unwalked = (s.port p).unwalked
  trips : (t.port p).tripCount ≤ (s.port p).tripCount
  memory : t.memory = s.memory
  pending : Pending s t

theorem Walked.refl (p : PortId) (s : State) : Walked p s s := ⟨rfl, Nat.le_refl _, rfl, Pending.refl s⟩

theorem Walked.modPort (h : Walked p s t) (f : Port → Port) (hf : ∀ q, (f q).unwalked = q.unwalked)
    (ht : ∀ q, (f q).tripCount ≤ q.tripCount) : Walked p s (t.modPort p f) :=
  ⟨by rw [State.port_modPort_same, hf]; exact h.port,
    by rw [State.port_modPort_same]; exact (ht _).trans h.trips, h.memory, h.pending⟩

theorem Walked.modSession (h : Walked p s t) (f : Session → Session) (hf : ∀ y, (f y).core = y.core) :
    Walked p s (t.modSession p f) :=
  h.modPort _ (fun q => by exact q.unwalked_mapSession f hf) fun _ => by exact Nat.le_refl _

theorem Port.tripCount_of_unlit {q' : Port} (h : q'.unlit = q.unlit) : q'.tripCount = q.tripCount := by
  have ht := congrArg Port.tripCount h
  exact ht

theorem State.pending_reportPresented (s : State) (p : PortId) (c : Sig) : Pending s (s.reportPresented p c) := by
  unfold State.reportPresented
  split
  · refine Pending.afterRelease fun g m hm => ?_
    rwa [show (s.fallGrant p c.offered).group g = s.group g from
      congrArg (fun n : Notices => n.groups[g.val]) (State.notices_fallGrant s p c.offered)]
  · exact Pending.refl s

theorem Walked.reportPresented (h : Walked p s t) (c : Sig) : Walked p s (t.reportPresented p c) :=
  ⟨(Port.unwalked_of_unlit (State.unlit_reportPresented t p c)).trans h.port,
    (Nat.le_of_eq (Port.tripCount_of_unlit (State.unlit_reportPresented t p c))).trans h.trips,
    (State.memory_reportPresented t p c).trans h.memory, fun g m hm => t.pending_reportPresented p c g m (h.pending g m hm)⟩

theorem Walked.representFor (h : Walked p s t) (c : Sig) (who : Requester) : Walked p s (t.representFor p c who) :=
  h.modPort _ (fun q => by exact Port.unwalked_of_unlit (q.unlit_represents c who))
    fun q => by exact Nat.le_of_eq (Port.tripCount_of_unlit (q.unlit_represents c who))

theorem Walked.raisePort (h : Walked p s t) (k : Kind) : Walked p s (t.raisePort p k) :=
  ⟨h.port, h.trips, h.memory, h.pending.raise (portGroup p) k⟩

theorem Walked.enterSteady (h : Walked p s t) : Walked p s (t.enterSteady p) :=
  (h.modPort Port.steadied (fun q => Port.unwalked_mapSession { q with tripCount := 0 } _ fun _ => rfl)
    fun _ => Nat.zero_le _).raisePort .steady

theorem Walked.startWindow (h : Walked p s t) : Walked p s (t.startWindow p) :=
  h.modPort Port.windowed (fun q => Port.unwalked_mapSession
    { q with timers := { q.timers with evaluation := some (seconds q.policy.evaluationWindow) } } _ fun _ => rfl)
    fun _ => Nat.le_refl _

theorem Walked.towardStep (h : Walked p s t) (st : TrialStep) : Walked p s (t.towardStep p st) := by
  unfold State.towardStep
  split
  · unfold State.stepReached
    cases st.kind with
    | evaluate => exact (h.reportPresented _).startWindow
    | present => exact (h.reportPresented _).enterSteady
  · exact h.representFor _ _

theorem Walked.budget (h : Walked p s t) (b : Budget) : Walked p s { t with budget := b } :=
  ⟨h.port, h.trips, h.memory, h.pending⟩

/-- A walk keeps its port unit's settings, timers but the window's, and its session's record. -/
theorem Walked.walk (h : Walked p s t) : Walked p s (t.walk p) := by
  unfold State.walk
  cases (t.port p).session with
  | none => exact h
  | some x =>
    dsimp only
    cases x.remaining with
    | nil =>
      have hw := h.modSession (fun y => { y with remaining := [], current := none }) fun _ => by exact rfl
      unfold State.exhaust
      dsimp only
      split
      · exact (hw.reportPresented _).enterSteady
      · exact hw.representFor _ _
    | cons st rest =>
      have hw := h.modSession (fun y => { y with current := some st, remaining := rest }) fun _ => by exact rfl
      unfold State.takeHead State.setCurrent
      dsimp only
      split
      · exact hw.towardStep st
      · split
        · exact (hw.budget _).towardStep st
        · exact ((hw.budget _).raisePort .wait).modSession _ fun _ => by exact rfl

/-! ### The step taken -/

theorem Port.shows_iff_atOnce (q : Port) {c : Sig} (hb : q.hubTurns c = false) : q.atOnce c = q.shows c := by
  unfold Port.atOnce Port.turned Port.shows
  rw [hb, if_neg Bool.false_ne_true]

theorem Session.took_resting {y : Session} (hs : y.steps = []) (hp : y.phase = some .steady) (hq : q.shows .P = true)
    (g : Nat) : y.took q g [] = true := by
  unfold Session.took
  simp [hs, hp, hq]

/-- The lines go to the head of the steps, or to P when there is none. -/
theorem Session.took_heading {y : Session} {steps : List TrialStep} (hs : y.steps = steps)
    (hp : y.phase = some .representing) (hq : q.shows ((steps.head?.map (·.sig)).getD .P) = false) (g : Nat) :
    y.took q g steps = true := by
  unfold Session.took
  cases steps with
  | nil => simpa [hs, hp] using hq
  | cons st rest =>
    have hq' : q.shows st.sig = false := hq
    simp [hs, hp, hq']

theorem Session.took_waiting {y : Session} {st : TrialStep} {rest : List TrialStep} (hs : y.steps = st :: rest)
    (hp : y.phase = some .waitingBudget) {g : Nat} (hg : g < st.sig.offered) (q : Port) :
    y.took q g (st :: rest) = true := by
  unfold Session.took
  simp [hs, hp, hg]

theorem Session.took_presented {y : Session} {st : TrialStep} (hs : y.steps = []) (hp : y.phase = some .steady)
    (hk : st.kind = .present) (hq : q.shows st.sig = true) (g : Nat) (rest : List TrialStep) :
    y.took q g (st :: rest) = true := by
  unfold Session.took
  simp [hs, hp, hk, hq]

theorem Session.took_evaluated {y : Session} {st : TrialStep} {rest : List TrialStep} (hs : y.steps = st :: rest)
    (hp : y.phase = some .evaluating) (hk : st.kind = .evaluate) (hq : q.shows st.sig = true) (g : Nat) :
    y.took q g (st :: rest) = true := by
  unfold Session.took
  simp [hs, hp, hk, hq]

theorem Session.steps_of_unphased {y : Session} (h : y.unphased = x.unphased) : y.steps = x.steps := by
  have hc := congrArg Session.current h
  have hr := congrArg Session.remaining h
  exact congrArg₂ (fun (o : Option TrialStep) l => o.toList ++ l) hc hr

/-- The step of a session's current signature, taken (R49, R54). -/
theorem State.towardStep_took {st : TrialStep} (hx : (s.port p).session = some x) (hc : x.current = some st)
    (hb : (s.port p).hubTurns st.sig = false) (g : Nat) :
    ∃ y, ((s.towardStep p st).port p).session = some y ∧ y.took (s.port p) g (st :: x.remaining) = true := by
  have hsteps : x.steps = st :: x.remaining := by rw [Session.steps, hc]; rfl
  unfold State.towardStep
  rw [(s.port p).shows_iff_atOnce hb]
  cases hshow : (s.port p).shows st.sig with
  | true =>
    rw [if_pos rfl]
    obtain ⟨y, hy, hu⟩ := Port.session_of_unlit (State.unlit_reportPresented s p st.sig) hx
    have hys : y.steps = st :: x.remaining := (Session.steps_of_unphased hu).trans hsteps
    unfold State.stepReached
    cases hk : st.kind with
    | evaluate =>
      refine ⟨_, by rw [State.startWindow_eq, State.port_modPort_same]; exact session_map _ hy, ?_⟩
      exact Session.took_evaluated (by exact hys) rfl hk hshow g
    | present =>
      refine ⟨_, by rw [State.enterSteady_eq, State.port_raisePort, State.port_modPort_same]; exact session_map _ hy, ?_⟩
      exact Session.took_presented rfl rfl hk hshow g _
  | false =>
    rw [if_neg Bool.false_ne_true]
    obtain ⟨y, hy, hu⟩ := Port.session_of_unlit ((s.port p).unlit_requestRePresent st.sig .sequencer) hx
    have hys : y.steps = st :: x.remaining := (Session.steps_of_unphased hu).trans hsteps
    refine ⟨_, by rw [State.representFor, State.port_modPort_same]; exact session_map _ hy, ?_⟩
    exact Session.took_heading (by exact hys) rfl hshow g

/-- A walk with an unblocked head takes the first of the remaining steps, or comes to rest (R49, R50, R54). -/
theorem State.walk_took (hx : (s.port p).session = some x) (hb : (s.port p).headBlocked = false) :
    ∃ y, ((s.walk p).port p).session = some y ∧ y.took (s.port p) (s.grant p) x.remaining = true := by
  unfold State.walk
  rw [hx]
  dsimp only
  cases hr : x.remaining with
  | nil =>
    have hport := State.port_modSession_same s p fun y => { y with remaining := [], current := none }
    rw [hx] at hport
    unfold State.exhaust
    dsimp only
    have hshow : ((s.modSession p fun y => { y with remaining := [], current := none }).port p).atOnce .P
        = (s.port p).shows .P := by
      rw [hport]
      rfl
    rw [hshow]
    cases hP : (s.port p).shows .P with
    | true =>
      rw [if_pos rfl]
      obtain ⟨y, hy, -⟩ := Port.session_of_unlit
        (State.unlit_reportPresented (s.modSession p fun y => { y with remaining := [], current := none }) p .P)
        (congrArg Port.session hport)
      refine ⟨_, by rw [State.enterSteady_eq, State.port_raisePort, State.port_modPort_same]; exact session_map _ hy, ?_⟩
      exact Session.took_resting rfl rfl hP _
    | false =>
      rw [if_neg Bool.false_ne_true]
      obtain ⟨y, hy, hu⟩ := Port.session_of_unlit
        (Port.unlit_requestRePresent
          ((s.modSession p fun y => { y with remaining := [], current := none }).port p) .P .sequencer)
        (congrArg Port.session hport)
      have hys : y.steps = [] := (Session.steps_of_unphased hu).trans rfl
      refine ⟨_, by rw [State.representFor, State.port_modPort_same]; exact session_map _ hy, ?_⟩
      exact Session.took_heading (by exact hys) rfl hP _
  | cons st rest =>
    have hturn : (s.port p).hubTurns st.sig = false := by
      unfold Port.headBlocked at hb
      rw [hx] at hb
      simpa only [hr] using hb
    have hport := State.port_modSession_same s p fun y => { y with current := some st, remaining := rest }
    rw [hx] at hport
    unfold State.takeHead State.setCurrent
    dsimp only
    by_cases hle : st.sig.offered ≤ (s.modSession p fun y => { y with current := some st, remaining := rest }).grant p
    · rw [if_pos hle]
      have := State.towardStep_took (congrArg Port.session hport) rfl (by rw [hport]; exact hturn) (s.grant p)
      rwa [hport] at this
    · rw [if_neg hle]
      split
      · have hport' : (((s.modSession p fun y => { y with current := some st, remaining := rest }).setGrant p
            st.sig.offered).port p) = _ := hport
        have := State.towardStep_took (congrArg Port.session hport') rfl (by rw [hport']; exact hturn) (s.grant p)
        rwa [hport'] at this
      · refine ⟨_, by rw [State.port_modSession_same]; exact session_map _ (congrArg Port.session hport), ?_⟩
        exact Session.took_waiting rfl rfl (Nat.not_le.mp hle) _

end Sys2Proof.Machine
end

section
/-! Computations and the steps they take: the beginning of the trials, a retry, the answer of the budget arbiter. -/

namespace Sys2Proof.Machine

variable {s t u : State} {p : PortId} {q : Port} {x y : Session} {steps : List TrialStep}

/-- A walk's outcome at its port: the record of the session `x` is kept and the first of the steps is taken. -/
structure Stepped (p : PortId) (s t : State) (x : Session) (steps : List TrialStep) : Prop where
  memory : t.memory = s.memory
  frame : { (t.port p).unwalked with session := none } = { (s.port p).unwalked with session := none }
  session : ∃ y, (t.port p).session = some y ∧ y.core = x.core ∧ y.took (s.port p) (s.grant p) steps = true

/-- The fields of a session that a walk keeps. -/
theorem Session.core_data (h : y.core = x.core) :
    y.number = x.number ∧ y.mode = x.mode ∧ y.trialsBegun = x.trialsBegun ∧ y.identity = x.identity
      ∧ y.boundSlot = x.boundSlot ∧ y.verdicts = x.verdicts ∧ y.lastMean = x.lastMean ∧ y.shed = x.shed
      ∧ y.recomputeDue = x.recomputeDue ∧ y.policy = x.policy := by
  have h1 := congrArg Session.number h
  have h2 := congrArg Session.mode h
  have h3 := congrArg Session.trialsBegun h
  have h4 := congrArg Session.identity h
  have h5 := congrArg Session.boundSlot h
  have h6 := congrArg Session.verdicts h
  have h7 := congrArg Session.lastMean h
  have h8 := congrArg Session.shed h
  have h9 := congrArg Session.recomputeDue h
  have h10 := congrArg Session.policy h
  exact ⟨h1, h2, h3, h4, h5, h6, h7, h8, h9, h10⟩

theorem Stepped.timers (h : Stepped p s t x steps) :
    (t.port p).timers.settle = (s.port p).timers.settle ∧ (t.port p).timers.identityWait = (s.port p).timers.identityWait
      ∧ (t.port p).timers.hold = (s.port p).timers.hold ∧ (t.port p).timers.link = (s.port p).timers.link := by
  have h1 := congrArg (fun q : Port => q.timers.settle) h.frame
  have h2 := congrArg (fun q : Port => q.timers.identityWait) h.frame
  have h3 := congrArg (fun q : Port => q.timers.hold) h.frame
  have h4 := congrArg (fun q : Port => q.timers.link) h.frame
  exact ⟨h1, h2, h3, h4⟩

theorem Stepped.state (h : Stepped p s t x steps) : (t.port p).state = (s.port p).state := by
  have h1 := congrArg Port.state h.frame
  exact h1

/-- A walk with an unblocked head. -/
theorem State.walk_stepped (hx : (s.port p).session = some x) (hb : (s.port p).headBlocked = false) :
    Stepped p s (s.walk p) x x.remaining := by
  have hw := (Walked.refl p s).walk
  obtain ⟨y, hy, htook⟩ := State.walk_took hx hb
  refine ⟨hw.memory, congrArg (fun q : Port => { q with session := none }) hw.port, y, hy, ?_, htook⟩
  have hs := congrArg Port.session hw.port
  unfold Port.unwalked at hs
  simp only [hy, hx, Option.map_some, Option.some.injEq] at hs
  exact hs

/-- A session whose sequence has just been computed (R47). -/
def Session.computedNow (q : Port) (x : Session) : Session := { x with mode := q.modeNow, recomputeDue := false }

/-- A computation and the walk that follows it (R47, R49). -/
theorem State.compute_walk_stepped (hx : (s.port p).session = some x) (retry : Bool) :
    Stepped p s ((s.compute p retry).walk p) (x.computedNow (s.port p))
      (s.computedSteps retry (s.port p).modeNow x) := by
  have hport := State.port_compute s p retry
  rw [hx] at hport
  have h := State.walk_stepped (congrArg Port.session hport) (State.headBlocked_compute s p retry)
  refine ⟨h.memory, ?_, ?_⟩
  · refine h.frame.trans ?_
    rw [hport]
    rfl
  · obtain ⟨y, hy, hc, ht⟩ := h.session
    rw [hport] at ht
    exact ⟨y, hy, hc, ht⟩

theorem State.recompute_stepped (hx : (s.port p).session = some x) :
    Stepped p s (s.recompute p) (x.computedNow (s.port p)) (s.computedSteps false (s.port p).modeNow x) := by
  rw [State.recompute_eq]
  exact State.compute_walk_stepped hx false

theorem State.takeStep_blocked (hb : (s.port p).headBlocked = true) : s.takeStep p = s.recompute p := by
  rw [State.recompute_eq, State.takeStep, if_pos hb]

theorem State.takeStep_unblocked (hb : (s.port p).headBlocked = false) : s.takeStep p = s.walk p := by
  rw [State.takeStep, hb, if_neg Bool.false_ne_true]

/-- A head that the hub blocks is met in DATA mode. -/
theorem Port.modeNow_of_headBlocked (hb : q.headBlocked = true) : q.modeNow = .data := by
  unfold Port.headBlocked at hb
  cases hx : q.session with
  | none => simp [hx] at hb
  | some x =>
    rw [hx] at hb
    cases hr : x.remaining with
    | nil => simp [hr] at hb
    | cons st rest =>
      simp only [hr, Port.hubTurns, Bool.and_eq_true] at hb
      exact if_pos hb.2

/-- What a change of the port unit before the walk leaves of its outcome. -/
theorem Stepped.of_port (h : Stepped p u t x steps) (hm : u.memory = s.memory)
    (hpres : (u.port p).presented = (s.port p).presented) (hre : (u.port p).rePresent = (s.port p).rePresent)
    (hg : u.grant p = s.grant p) :
    t.memory = s.memory ∧ ∃ y, (t.port p).session = some y ∧ y.core = x.core
      ∧ y.took (s.port p) (s.grant p) steps = true := by
  obtain ⟨y, hy, hc, ht⟩ := h.session
  refine ⟨h.memory.trans hm, y, hy, hc, ?_⟩
  rw [hg] at ht
  have hs : ∀ c, (u.port p).shows c = (s.port p).shows c := fun c => by
    unfold Port.shows
    rw [hpres, hre]
  unfold Session.took at ht ⊢
  simpa only [hs] using ht

/-! ### The trials begin -/

theorem exec_settleExpiry (ht : (s.port p).timers.settle.isSome = true) (hx : (s.port p).session = some x)
    (hp : x.phase = some .settling) :
    exec (.settleExpiry p) s = .next ((s.modTimers p fun x => { x with settle := none }).settleEnd p) := by
  obtain ⟨left, hleft⟩ := Option.isSome_iff_exists.mp ht
  refine congrArg Host.Outcome.next ?_
  rw [show (s.timers p).settle = some left from hleft]
  refine if_pos ?_
  unfold State.phase
  rw [State.port_modTimers_same, hx]
  exact hp

theorem exec_identityWaitExpiry (ht : (s.port p).timers.identityWait.isSome = true) (hx : (s.port p).session = some x)
    (hp : x.phase = some .identifying) :
    exec (.identityWaitExpiry p) s = .next ((s.modTimers p fun x => { x with identityWait := none }).beginTrials p) := by
  obtain ⟨left, hleft⟩ := Option.isSome_iff_exists.mp ht
  refine congrArg Host.Outcome.next ?_
  rw [show (s.timers p).identityWait = some left from hleft]
  refine if_pos ?_
  unfold State.phase
  rw [State.port_modTimers_same, hx]
  exact hp

/-- The beginning of the trials (R29, R30). -/
theorem State.beginTrials_stepped (hx : (s.port p).session = some x) :
    Stepped p s (s.beginTrials p) { x.computedNow (s.port p) with trialsBegun := true }
      (s.computedSteps false (s.port p).modeNow x) := by
  have hport := State.port_modSession_same s p fun y => { y with trialsBegun := true }
  rw [hx] at hport
  have h := State.recompute_stepped (congrArg Port.session hport)
  refine ⟨h.memory, h.frame.trans ?_, ?_⟩
  · rw [hport]
    rfl
  · obtain ⟨y, hy, hc, ht⟩ := h.session
    rw [hport] at ht hc
    exact ⟨y, hy, hc, ht⟩

/-- Settles O44: the settle's end waits for an identity or begins the trials, and so does the end of that wait. -/
theorem settleAndIdentityWaitBeginTheTrials : Obligations.SettleAndIdentityWaitBeginTheTrials := by
  unfold Obligations.SettleAndIdentityWaitBeginTheTrials
  intro s p x hx
  refine ⟨fun ht hp => ⟨fun htb hw hi => ?waits, fun h => ?begins⟩, fun ht hp => ?waited⟩
  case waits =>
    have he := exec_settleExpiry ht hx hp
    have hport := State.port_modTimers_same s p fun x => { x with settle := none }
    have hend : (s.modTimers p fun x => { x with settle := none }).settleEnd p
        = (s.modTimers p fun x => { x with settle := none }).modPort p (Port.identified x.policy.identityWait) := by
      unfold State.settleEnd
      rw [hport, hx]
      dsimp only
      rw [if_neg (by simp [htb]), if_pos ⟨hw, hi⟩]
      rfl
    rw [hend] at he
    refine ⟨_, he, (onlyPort_modPort s p _).then_modPort _, ?_⟩
    rw [State.port_modPort_same, hport]
    simp [Port.identified, hx, seconds]
  case begins =>
    have he := exec_settleExpiry ht hx hp
    have hl := local_of_exec (p := p) (r := 0) (by simp [portEvents]) he
    have hport := State.port_modTimers_same s p fun x => { x with settle := none }
    have hx' : ((s.modTimers p fun x => { x with settle := none }).port p).session = some x := by rw [hport]; exact hx
    have hend : Stepped p (s.modTimers p fun x => { x with settle := none })
        ((s.modTimers p fun x => { x with settle := none }).settleEnd p)
        { x.computedNow (s.port p) with trialsBegun := true } (s.computedSteps false (s.port p).modeNow x) := by
      unfold State.settleEnd
      rw [hx']
      dsimp only
      by_cases htb : x.trialsBegun = true
      · have h := State.recompute_stepped hx'
        rw [if_pos htb]
        rw [hport] at h
        refine ⟨h.memory, h.frame.trans (by rw [hport]), ?_⟩
        obtain ⟨y, hy, hc, ht⟩ := h.session
        refine ⟨y, hy, hc.trans ?_, ht⟩
        simp [Session.core, Session.unphased, Session.computedNow, Port.modeNow, htb]
      · have hno : ¬(0 < x.policy.identityWait ∧ x.identity = none) := fun hn => by
          rcases h with h | h | h
          · exact htb h
          · omega
          · rw [hn.2] at h
            cases h
        rw [if_neg htb, if_neg hno]
        have h := State.beginTrials_stepped hx'
        rw [hport] at h
        exact ⟨h.memory, h.frame.trans (by rw [hport]), h.session⟩
    have htimer := hend.timers.1
    rw [hport] at htimer
    obtain ⟨hmem, y, hy, hc, htook⟩ := hend.of_port (s := s) rfl (by rw [hport]) (by rw [hport]) rfl
    obtain ⟨-, hmode, htb, -, -, hver, -, -, hdue, -⟩ := Session.core_data hc
    refine ⟨_, he, hl.1, hl.2.1, hmem, htimer, ?_⟩
    rw [hy]
    have hmode' : y.mode = if (s.port p).pins.hen then .data else .charge := hmode
    have hdue' : y.recomputeDue = false := hdue
    have hver' : y.verdicts = x.verdicts := hver
    simp [htb, hmode', hver', hdue', htook]
  case waited =>
    have he := exec_identityWaitExpiry ht hx hp
    have hl := local_of_exec (p := p) (r := 0) (by simp [portEvents]) he
    have hport := State.port_modTimers_same s p fun x => { x with identityWait := none }
    have hend := State.beginTrials_stepped (s := s.modTimers p fun x => { x with identityWait := none }) (p := p) (x := x)
      (by rw [hport]; exact hx)
    have htimer := hend.timers.2.1
    rw [hport] at htimer
    obtain ⟨hmem, y, hy, hc, htook⟩ := hend.of_port (s := s) rfl (by rw [hport]) (by rw [hport]) rfl
    obtain ⟨-, hmode, htb, -, -, hver, -, -, hdue, -⟩ := Session.core_data hc
    rw [hport] at hmode htook
    refine ⟨_, he, hl.1, hl.2.1, hmem, htimer, ?_⟩
    rw [hy]
    have hmode' : y.mode = if (s.port p).pins.hen then .data else .charge := hmode
    have hdue' : y.recomputeDue = false := hdue
    have hver' : y.verdicts = x.verdicts := hver
    have htook' : y.took (s.port p) (s.grant p) (s.computedSteps false (s.port p).modeNow x) = true := htook
    simp [htb, hmode', hver', hdue', htook']

end Sys2Proof.Machine
end

section
/-! Retry Trials, and what a computation gives. -/

namespace Sys2Proof.Machine

variable {s t : State} {p : PortId} {x y : Session}

/-! ### The list up to its first PRESENT step -/

theorem cutAfterPresent_cons (st : TrialStep) (rest : List TrialStep) :
    cutAfterPresent (st :: rest) = if st.kind = .present then [st] else st :: cutAfterPresent rest := rfl

theorem cutAfterPresent_prefix (l : List TrialStep) : cutAfterPresent l <+: l := by
  induction l with
  | nil => exact List.prefix_refl _
  | cons st rest ih =>
    rw [cutAfterPresent_cons]
    split
    · exact List.prefix_append [st] rest
    · exact (List.prefix_cons_inj st).mpr ih

theorem cutAfterPresent_ne_nil {l : List TrialStep} (h : l ≠ []) : cutAfterPresent l ≠ [] := by
  cases l with
  | nil => exact absurd rfl h
  | cons st rest =>
    rw [cutAfterPresent_cons]
    split <;> exact List.cons_ne_nil _ _

theorem kind_of_mem_dropLast_cut {l : List TrialStep} {o : TrialStep} (h : o ∈ (cutAfterPresent l).dropLast) :
    o.kind = .evaluate := by
  induction l with
  | nil => cases h
  | cons st rest ih =>
    rw [cutAfterPresent_cons] at h
    by_cases hk : st.kind = .present
    · rw [if_pos hk] at h
      cases h
    · rw [if_neg hk] at h
      have hst : st.kind = .evaluate := by
        cases hkind : st.kind with
        | evaluate => rfl
        | present => exact absurd hkind hk
      cases rest with
      | nil => cases h
      | cons a l =>
        rw [List.dropLast_cons_of_ne_nil (cutAfterPresent_ne_nil (List.cons_ne_nil a l))] at h
        rcases List.mem_cons.mp h with rfl | h
        · exact hst
        · exact ih h

/-- A list that was cut short ends in the PRESENT step. -/
theorem last_cut_present {l : List TrialStep} (h : (cutAfterPresent l).length < l.length) :
    ((cutAfterPresent l).getLast?.any fun o => o.kind == .present) = true := by
  induction l with
  | nil => simp [cutAfterPresent] at h
  | cons st rest ih =>
    rw [cutAfterPresent_cons] at h ⊢
    by_cases hk : st.kind = .present
    · simp [hk]
    · rw [if_neg hk] at h ⊢
      have hlt : (cutAfterPresent rest).length < rest.length := by simpa using h
      have hne : rest ≠ [] := fun e => by simp [e, cutAfterPresent] at hlt
      rw [List.getLast?_cons_of_ne_nil (cutAfterPresent_ne_nil hne)]
      exact ih hlt

/-! ### The verdicts of a session -/

theorem verdictIn_of_mem {l : List VerdictEntry} (hn : (l.map (·.sig)).Nodup) {w : VerdictEntry} (hw : w ∈ l) :
    verdictIn l w.sig = some w.verdict := by
  unfold verdictIn
  have hfind : l.find? (fun v => v.sig == w.sig) = some w := by
    cases hf : l.find? fun v => v.sig == w.sig with
    | none => exact absurd (List.find?_eq_none.mp hf w hw) (by simp)
    | some v =>
      have hs : v.sig = w.sig := by simpa using List.find?_some hf
      rw [List.inj_on_of_nodup_map hn (List.mem_of_find?_eq_some hf) hw hs]
  rw [hfind]
  rfl

theorem verdictIn_eq_some {l : List VerdictEntry} {c : Sig} {v : Verdict} (h : verdictIn l c = some v) :
    ∃ w, w ∈ l ∧ w.sig = c ∧ w.verdict = v := by
  unfold verdictIn at h
  obtain ⟨w, hf, hv⟩ := Option.map_eq_some_iff.mp h
  exact ⟨w, List.mem_of_find?_eq_some hf, by simpa using List.find?_some hf, hv⟩

/-- A step is struck out exactly when the list holds REJECTED for its signature. -/
theorem struck_iff {l : List VerdictEntry} (hn : (l.map (·.sig)).Nodup) (st : TrialStep) :
    decide (verdictIn l st.sig ≠ some .rejected) = !(l.any fun w => w.sig == st.sig && w.verdict == .rejected) := by
  rw [Bool.eq_iff_iff, decide_eq_true_iff, Bool.not_eq_true', ← Bool.not_eq_true, List.any_eq_true, not_iff_not]
  constructor
  · intro h
    obtain ⟨w, hw, hs, hv⟩ := verdictIn_eq_some h
    exact ⟨w, hw, by simp [hs, hv]⟩
  · rintro ⟨w, hw, h⟩
    obtain ⟨hs, hv⟩ : w.sig = st.sig ∧ w.verdict = .rejected := by simpa using h
    rw [← hs, verdictIn_of_mem hn hw, hv]

/-- The steps whose signatures the list does not hold REJECTED. -/
def unstruck (l : List VerdictEntry) (ordered : List TrialStep) : List TrialStep :=
  ordered.filter fun o => !(l.any fun w => w.sig == o.sig && w.verdict == .rejected)

theorem underVerdicts_eq {l : List VerdictEntry} (hn : (l.map (·.sig)).Nodup) {retry : Bool} {ordered : List TrialStep} :
    underVerdicts retry l ordered = cutAfterPresent ((unstruck l ordered).map (stepUnder retry l)) := by
  unfold underVerdicts unstruck
  rw [List.filter_congr fun st _ => struck_iff hn st]

/-- The kind of a step under the session's verdicts (R46). -/
theorem stepUnder_kind {retry : Bool} {l : List VerdictEntry} (hn : (l.map (·.sig)).Nodup) (st : TrialStep) :
    (stepUnder retry l st).kind = .present ↔ st.kind = .present ∨ ∃ w, w ∈ l ∧ w.sig = st.sig ∧
      (w.verdict = .accepted ∨ (w.verdict = .inconclusive ∧ retry = false)) := by
  unfold stepUnder
  cases hv : verdictIn l st.sig with
  | none =>
    refine ⟨Or.inl, fun h => h.resolve_right ?_⟩
    rintro ⟨w, hw, hs, -⟩
    rw [← hs, verdictIn_of_mem hn hw] at hv
    cases hv
  | some v =>
    obtain ⟨w0, hw0, hs0, rfl⟩ := verdictIn_eq_some hv
    have same : ∀ w, w ∈ l → w.sig = st.sig → w.verdict = w0.verdict := fun w hw hs => by
      rw [← hs, verdictIn_of_mem hn hw] at hv
      exact Option.some.inj hv
    have hex : (∃ w, w ∈ l ∧ w.sig = st.sig ∧ (w.verdict = .accepted ∨ (w.verdict = .inconclusive ∧ retry = false)))
        ↔ (w0.verdict = .accepted ∨ (w0.verdict = .inconclusive ∧ retry = false)) := by
      constructor
      · rintro ⟨w, hw, hs, h⟩
        rwa [same w hw hs] at h
      · exact fun h => ⟨w0, hw0, hs0, h⟩
    rw [hex]
    cases w0.verdict <;> cases retry <;> simp

theorem mem_underVerdicts {retry : Bool} {l : List VerdictEntry} {ordered : List TrialStep} {o : TrialStep}
    (h : o ∈ underVerdicts retry l ordered) :
    ∃ st, st ∈ ordered ∧ verdictIn l st.sig ≠ some .rejected ∧ stepUnder retry l st = o := by
  obtain ⟨st, hst, ho⟩ := List.mem_map.mp (mem_of_mem_cutAfterPresent h)
  obtain ⟨hm, hv⟩ := List.mem_filter.mp hst
  exact ⟨st, hm, of_decide_eq_true hv, ho⟩

/-! ### Retry Trials -/

/-- A retry's computation and its first step (R67). -/
theorem State.retry_stepped (hx : (s.port p).session = some x) :
    Stepped p s (s.retry p) { x.computedNow (s.port p) with shed := false, trialsBegun := true }
      (s.computedSteps true (s.port p).modeNow x) := by
  have hport := State.port_modSession_same s p fun y => { y with shed := false, trialsBegun := true }
  rw [hx] at hport
  have h := State.compute_walk_stepped (congrArg Port.session hport) true
  unfold State.retry
  rw [State.takeStep_unblocked (State.headBlocked_compute _ _ _)]
  refine ⟨h.memory, h.frame.trans ?_, ?_⟩
  · rw [hport]
    rfl
  · obtain ⟨y, hy, hc, ht⟩ := h.session
    rw [hport] at ht hc
    exact ⟨y, hy, hc, ht⟩

/-- Settles O27: a retry computes the sequence and takes its first step; a computation orders the candidates by the bound
entry and drops, keeps or cuts them by the session's verdicts. -/
theorem retryTrialsComputesAgain : Obligations.RetryTrialsComputesAgain := by
  unfold Obligations.RetryTrialsComputesAgain
  intro s tag p policy m threshold e g again list ordered
  refine ⟨fun hr hs hp x hx => ?retry, ⟨rfl, rfl⟩, rfl, fun h => ?fresh, fun hst hg => ?tentative, fun hst hg => ?settled,
    fun hn => ⟨fun o ho w hw hs => ?struck, fun o ho => ?kept, ?order, fun o ho => kind_of_mem_dropLast_cut ho,
      fun hlt => ?last⟩⟩
  case retry =>
    have he := (exec_retryTrials (p := p) tag hr).trans (congrArg _ (if_pos ⟨hs, hp⟩))
    have hstep := State.retry_stepped hx
    obtain ⟨y, hy, hc, htook⟩ := hstep.session
    obtain ⟨hnum, hmode, htb, hid, hbs, hver, -, hshed, hdue, -⟩ := Session.core_data hc
    have hmode' : y.mode = if (s.port p).pins.hen then .data else .charge := hmode
    have hdue' : y.recomputeDue = false := hdue
    have hver' : y.verdicts = x.verdicts := hver
    have hnum' : y.number = x.number := hnum
    have hid' : y.identity = x.identity := hid
    have hbs' : y.boundSlot = x.boundSlot := hbs
    refine ⟨_, he, replied_respond _ _ _ _ _, (Acts.refl p s).retry.othersKept.respond _ _ _ _, hstep.memory, ?_⟩
    unfold State.respondWith
    rw [State.port_respond, hy]
    simp [hmode', hdue', hver', hnum', hid', hbs', htb, hshed, htook]
  case fresh =>
    unfold orderedSteps
    rcases h with h | ⟨h, hp⟩
    · simp only [h]
      rfl
    · simp only [h, hp]
      rfl
  case tentative =>
    unfold orderedSteps
    simp only [hst, hg]
    rfl
  case settled =>
    unfold orderedSteps
    simp only [hst, hg]
    rfl
  case struck =>
    obtain ⟨st, -, hv, rfl⟩ := mem_underVerdicts ho
    rw [stepUnder_sig] at hs
    intro hrej
    rw [← hs, verdictIn_of_mem hn hw, hrej] at hv
    exact hv rfl
  case kept =>
    obtain ⟨st, hst, -, rfl⟩ := mem_underVerdicts ho
    rw [stepUnder_sig]
    exact ⟨st, hst, rfl, stepUnder_kind hn st⟩
  case order =>
    rw [underVerdicts_eq hn]
    have h := (cutAfterPresent_prefix ((unstruck list ordered).map (stepUnder again list))).map (·.sig)
    rw [List.map_map, show (fun o : TrialStep => o.sig) ∘ stepUnder again list = (fun o => o.sig) from
      funext (stepUnder_sig again list)] at h
    exact h
  case last =>
    rw [underVerdicts_eq hn] at hlt ⊢
    refine last_cut_present ?_
    rw [List.length_map]
    exact hlt

end Sys2Proof.Machine
end

section
/-! What a step asks of the budget arbiter, and how the arbiter serves its queue. -/

namespace Sys2Proof.Machine

variable {s t : State} {p : PortId} {q : Port} {x : Session} {st : TrialStep}

/-! ### A step toward a signature that is not presented -/

/-- The port unit whose lines go to a step's signature from a letter or from neutral. -/
def Port.heading (c : Sig) (q : Port) : Port :=
  { q.goNeutral with
    rePresent := some ⟨c, 50, false, .sequencer, q.presented⟩
    session := q.goNeutral.session.map fun y => { y with phase := some .representing, target := some c } }

theorem State.towardStep_start (hsw : (s.port p).switchOn = true) (hre : (s.port p).rePresent = none)
    (hb : (s.port p).hubTurns st.sig = false) (hp : (s.port p).presented ≠ some st.sig) :
    s.towardStep p st = s.modPort p (fun q => (q.requestRePresent st.sig .sequencer).sessionRepresents)
      ∧ (s.towardStep p st).port p = (s.port p).heading st.sig := by
  have hat : (s.port p).atOnce st.sig ≠ true := by
    rw [(s.port p).shows_iff_atOnce hb]
    simp [Port.shows, hp]
  have heq : s.towardStep p st = s.modPort p (fun q => (q.requestRePresent st.sig .sequencer).sessionRepresents) :=
    if_neg hat
  refine ⟨heq, ?_⟩
  rw [heq, State.port_modPort_same, Port.request_start hsw hre]
  simp [Port.sessionRepresents, Port.heading, Port.turned, hb]

theorem State.takeStep_head (hb : (s.port p).headBlocked = false) (hx : (s.port p).session = some x) {rest : List TrialStep}
    (hr : x.remaining = st :: rest) : s.takeStep p = s.takeHead p st rest := by
  rw [State.takeStep_unblocked hb, State.walk, hx]
  simp only [hr]

theorem Port.hubTurns_of_head (hb : q.headBlocked = false) (hx : q.session = some x) {rest : List TrialStep}
    (hr : x.remaining = st :: rest) : q.hubTurns st.sig = false := by
  unfold Port.headBlocked at hb
  rw [hx] at hb
  simpa only [hr] using hb

/-- The session whose lines go to a step's signature. -/
theorem Port.session_heading (hx : q.session = some x) (hs : x.suspended = false) (c : Sig) :
    (q.heading c).session
      = some { x with phase := some .representing, presented := none, target := some c } := by
  simp [Port.heading, Port.goNeutral, hx, Session.follow, hs]

/-! ### Service of the queue -/

theorem State.serveQueue_blocked {e : QueueEntry} (he : s.budget.queue.head? = some e)
    (h : s.budget.total - s.sumGrants < e.sig.offered - s.grant e.port) : s.serveQueue = s := by
  obtain ⟨rest, hq⟩ := List.head?_eq_some_iff.mp he
  have hn : ¬s.need e.port e.sig ≤ s.headroom := Nat.not_le.mpr h
  unfold State.serveQueue
  rw [hq, List.length_cons, State.serve, hq]
  exact if_neg hn

theorem State.serveQueue_grants {e : QueueEntry} (he : s.budget.queue.head? = some e)
    (h : e.sig.offered - s.grant e.port ≤ s.budget.total - s.sumGrants) :
    s.serveQueue = (s.grantHead e s.budget.queue.tail).serveQueue := by
  obtain ⟨rest, hq⟩ := List.head?_eq_some_iff.mp he
  have hn : s.need e.port e.sig ≤ s.headroom := h
  unfold State.serveQueue
  rw [hq, List.length_cons, State.serve, hq]
  exact if_pos hn

/-- The port unit of a granted entry: its lines go to the entry's signature. -/
theorem Port.granted_represents (hsw : q.switchOn = true) (hx : q.session.isSome = true) {c : Sig}
    (hb : q.hubTurns c = false) :
    ((q.requestRePresent c .sequencer).sessionRepresents.rePresent.any fun r =>
        r.target == c && r.requester == .sequencer) = true
      ∧ ((q.requestRePresent c .sequencer).sessionRepresents.session.any fun y =>
          y.phase == some .representing && y.target == some c) = true := by
  obtain ⟨r, hr, htarget, hwho, -⟩ := Port.requestRePresent_on hsw c .sequencer
  have ht : r.target = c := by rw [htarget, Port.turned, hb, if_neg Bool.false_ne_true]
  obtain ⟨x, hx⟩ := Option.isSome_iff_exists.mp hx
  obtain ⟨y, hy, -⟩ := Port.session_of_unlit (q.unlit_requestRePresent c .sequencer) hx
  simp [Port.sessionRepresents, hr, hy, ht, hwho]

/-- What a service of the queue leaves of the totals and the device group. -/
theorem State.serve_device (n : Nat) (s : State) :
    (State.serve n s).budget.total = s.budget.total ∧ (State.serve n s).budget.pendingTotal = s.budget.pendingTotal
      ∧ (State.serve n s).group 8 = s.group 8 := by
  refine State.serve_keeps (P := fun u => u.budget.total = s.budget.total
    ∧ u.budget.pendingTotal = s.budget.pendingTotal ∧ u.group 8 = s.group 8) ?_ n s ⟨rfl, rfl, rfl⟩
  intro u e rest ⟨h1, h2, h3⟩ _ _
  exact ⟨h1, h2, (State.group_raise_ne _ _ _ _ (portGroup_ne_device e.port).symm).trans h3⟩

theorem State.noVictims_iff (s : State) : s.noVictims = true ↔ ∀ r, s.victim r = false := by
  unfold State.noVictims State.victim
  rw [Vector.all_eq_true]
  constructor
  · exact fun h r => by simpa using h r.val r.isLt
  · exact fun h i hi => by simpa using h ⟨i, hi⟩

/-- The port unit with a step as its session's current one. -/
def Port.onStep (st : TrialStep) (rest : List TrialStep) (q : Port) : Port :=
  { q with session := q.session.map fun y => { y with current := some st, remaining := rest } }

theorem State.port_setCurrent (s : State) (p : PortId) (st : TrialStep) (rest : List TrialStep) :
    (s.setCurrent p st rest).port p = (s.port p).onStep st rest := State.port_modSession_same _ _ _

theorem State.setCurrent_elsewhere (s : State) (p : PortId) (st : TrialStep) (rest : List TrialStep) :
    Elsewhere p s (s.setCurrent p st rest) := Elsewhere.modPort s p _

/-- A step within the grant, or one whose upgrade fits, goes to the lines. -/
theorem State.takeHead_fits (hsw : (s.port p).switchOn = true) (hre : (s.port p).rePresent = none)
    (hb : (s.port p).hubTurns st.sig = false) (hp : (s.port p).presented ≠ some st.sig) (rest : List TrialStep)
    (h : st.sig.offered ≤ s.grant p ∨ s.upgradeFits p st.sig = true) :
    (s.takeHead p st rest).grant p = max (s.grant p) st.sig.offered
      ∧ (s.takeHead p st rest).port p = ((s.port p).onStep st rest).heading st.sig
      ∧ (s.takeHead p st rest).budget.queue = s.budget.queue ∧ (s.takeHead p st rest).notices = s.notices
      ∧ Elsewhere p s (s.takeHead p st rest) := by
  have hport := s.port_setCurrent p st rest
  unfold State.takeHead
  dsimp only
  by_cases hle : st.sig.offered ≤ s.grant p
  · have hgrant : st.sig.offered ≤ (s.setCurrent p st rest).grant p := hle
    obtain ⟨heq, hafter⟩ := State.towardStep_start (s := s.setCurrent p st rest) (p := p) (st := st)
      (by rw [hport]; exact hsw) (by rw [hport]; exact hre) (by rw [hport]; exact hb) (by rw [hport]; exact hp)
    rw [hport] at hafter
    rw [if_pos hgrant, Nat.max_eq_left hle]
    refine ⟨?_, hafter, ?_, ?_, ?_⟩ <;> rw [heq]
    · rfl
    · rfl
    · rfl
    · exact (s.setCurrent_elsewhere p st rest).trans (Elsewhere.modPort _ p _)
  · have hgrant : ¬st.sig.offered ≤ (s.setCurrent p st rest).grant p := hle
    have hfits : (s.setCurrent p st rest).upgradeFits p st.sig = true := h.resolve_left hle
    have hport' : ((s.setCurrent p st rest).setGrant p st.sig.offered).port p = (s.port p).onStep st rest := hport
    obtain ⟨heq, hafter⟩ := State.towardStep_start (s := (s.setCurrent p st rest).setGrant p st.sig.offered) (p := p)
      (st := st) (by rw [hport']; exact hsw) (by rw [hport']; exact hre) (by rw [hport']; exact hb)
      (by rw [hport']; exact hp)
    rw [hport'] at hafter
    rw [if_neg hgrant, if_pos hfits, Nat.max_eq_right (Nat.le_of_not_le hle)]
    refine ⟨?_, hafter, ?_, ?_, ?_⟩ <;> rw [heq]
    · exact State.grant_setGrant_same _ _ _
    · rfl
    · rfl
    · exact ((s.setCurrent_elsewhere p st rest).trans (Elsewhere.setGrant _ p _)).trans (Elsewhere.modPort _ p _)

/-- A step above the grant whose upgrade does not fit joins the queue. -/
theorem State.takeHead_waits (hx : (s.port p).session = some x) (rest : List TrialStep)
    (hlt : s.grant p < st.sig.offered) (hf : s.upgradeFits p st.sig = false) :
    (s.takeHead p st rest).budget.queue = s.budget.queue ++ [⟨p, st.sig, 200 * s.budget.waitLimit⟩]
      ∧ (s.takeHead p st rest).budget.grants = s.budget.grants
      ∧ (s.takeHead p st rest).port p = { s.port p with
          session := some { x with
            phase := some .waitingBudget, target := some st.sig, current := some st, remaining := rest } }
      ∧ RaisedIn s (s.takeHead p st rest) (portGroup p) .wait
      ∧ ∀ r, r ≠ p → (s.takeHead p st rest).port r = s.port r ∧ (s.takeHead p st rest).grant r = s.grant r := by
  have hport := s.port_setCurrent p st rest
  have hgrant : ¬st.sig.offered ≤ (s.setCurrent p st rest).grant p := Nat.not_le.mpr hlt
  have hfits : (s.setCurrent p st rest).upgradeFits p st.sig ≠ true := Bool.eq_false_iff.mp hf
  unfold State.takeHead
  dsimp only
  rw [if_neg hgrant, if_neg hfits]
  refine ⟨rfl, rfl, ?_, (raisedIn_raisePort _ p .wait).congr rfl rfl, fun r hr => ⟨?_, rfl⟩⟩
  · rw [State.port_modSession_same, State.joinQueue, State.port_raisePort, State.port_setQueue, hport]
    simp [Port.onStep, hx]
  · rw [State.port_modSession_ne _ _ _ _ hr, State.joinQueue, State.port_raisePort, State.port_setQueue]
    exact State.port_modSession_ne _ _ _ _ hr

theorem State.upgradeFits_iff (s : State) (p : PortId) (c : Sig) :
    s.upgradeFits p c = true ↔ s.budget.queue = [] ∧ s.budget.pendingTotal = none
      ∧ c.offered - s.grant p ≤ s.budget.total - s.sumGrants := by
  unfold State.upgradeFits State.need State.headroom
  simp [and_assoc]

/-- A pending total that no victim holds back is applied (R138). -/
theorem State.afterRelease_completes {total : Nat} (hp : s.budget.pendingTotal = some total)
    (hv : ∀ r, s.victim r = false) :
    s.afterRelease.budget.total = total ∧ s.afterRelease.budget.pendingTotal = none
      ∧ RaisedIn s s.afterRelease 8 .budgetApplied := by
  rw [State.afterRelease, hp]
  dsimp only
  rw [if_pos ((State.noVictims_iff s).mpr hv)]
  obtain ⟨h1, h2, h3⟩ := State.serve_device
    ({ s with budget := { s.budget with total := total, pendingTotal := none } }.raiseDevice .budgetApplied).budget.queue.length
    ({ s with budget := { s.budget with total := total, pendingTotal := none } }.raiseDevice .budgetApplied)
  exact ⟨h1, h2, (raised_device _ .budgetApplied).1.congr rfl h3⟩

/-- Settles O51: a step re-presents within the grant, raises it, or waits; the queue is served from its head. -/
theorem takingAStepAsksForBudget : Obligations.TakingAStepAsksForBudget := by
  unfold Obligations.TakingAStepAsksForBudget
  intro s p
  refine ⟨fun hb hsw hre x hx hs st hst hp => ?step, fun hq => State.serve_nil _ _ hq,
    fun e he h => State.serveQueue_blocked he h, fun e he h => ⟨State.serveQueue_grants he h, rfl, ?granted⟩,
    fun hn => ?serves, fun hpend hv => ?waits, fun total hpend hv => ?completes, fun hb x hx => ?blocked⟩
  case step =>
    obtain ⟨rest, hr⟩ := List.head?_eq_some_iff.mp hst
    have hturn := Port.hubTurns_of_head hb hx hr
    have hon : ((s.port p).onStep st rest).session = some { x with current := some st, remaining := rest } :=
      session_map _ hx
    rw [State.takeStep_head hb hx hr, hr]
    refine ⟨fun h => ?fits, fun hlt hf => ?queues, s.upgradeFits_iff p st.sig, fun q hq => ?others⟩
    case fits =>
      obtain ⟨hg, hafter, hqueue, hn, -⟩ := State.takeHead_fits hsw hre hturn hp rest h
      rw [hafter]
      exact ⟨hg, rfl, rfl, Port.session_heading hon hs st.sig, hqueue, hn⟩
    case queues =>
      obtain ⟨hqueue, hgrants, hafter, hraised, -⟩ := State.takeHead_waits hx rest hlt hf
      rw [hafter]
      exact ⟨hqueue, hgrants, rfl, rfl, hraised⟩
    case others =>
      by_cases h : st.sig.offered ≤ s.grant p ∨ s.upgradeFits p st.sig = true
      · obtain ⟨-, -, -, -, helse⟩ := State.takeHead_fits hsw hre hturn hp rest h
        obtain ⟨h1, h2, -⟩ := helse q hq
        exact ⟨h1, h2⟩
      · obtain ⟨hle, hf⟩ := not_or.mp h
        obtain ⟨-, -, -, -, hrest⟩ := State.takeHead_waits hx rest (Nat.not_le.mp hle) (Bool.eq_false_iff.mpr hf)
        exact hrest q hq
  case granted =>
    refine ⟨?_, (raisedIn_raisePort _ e.port .grant).congr rfl rfl, fun hsw hx hturn => ?_, fun q hq =>
      ⟨State.port_grantHead_ne _ _ hq, ?_⟩⟩
    · rw [State.grant_grantHead, if_pos rfl]
    · rw [State.port_grantHead_same]
      refine Port.granted_represents hsw hx ?_
      rcases hturn with h | h <;> simp [Port.hubTurns, h]
    · rw [State.grant_grantHead, if_neg hq]
  case serves => rw [State.afterRelease, hn]
  case waits =>
    obtain ⟨total, ht⟩ := Option.isSome_iff_exists.mp hpend
    obtain ⟨r, hr⟩ := hv
    rw [State.afterRelease, ht]
    exact if_neg fun h => by
      rw [(State.noVictims_iff s).mp h r] at hr
      cases hr
  case completes => exact State.afterRelease_completes hpend hv
  case blocked =>
    rw [State.takeStep_blocked hb]
    obtain ⟨y, hy, hc, htook⟩ := (State.recompute_stepped hx).session
    obtain ⟨-, hmode, -, -, -, -, -, -, hdue, -⟩ := Session.core_data hc
    rw [Port.modeNow_of_headBlocked hb] at htook
    have hmode' : y.mode = .data := hmode.trans (Port.modeNow_of_headBlocked hb)
    have hdue' : y.recomputeDue = false := hdue
    rw [hy]
    simp [hmode', hdue', htook]

end Sys2Proof.Machine
end

section
/-! The queue and the grants through a walk; the end of a budget wait. -/

namespace Sys2Proof.Machine

variable {s t u : State} {p : PortId} {q : Port} {x : Session} {st : TrialStep}

/-! ### The queue through a walk -/

theorem State.queue_serve (n : Nat) (s : State) : (State.serve n s).budget.queue <:+ s.budget.queue :=
  State.serve_keeps (P := fun u => u.budget.queue <:+ s.budget.queue)
    (fun _ e rest h hq _ => (List.suffix_cons e rest).trans (hq ▸ h)) n s (List.suffix_refl _)

theorem State.queue_afterRelease (s : State) : s.afterRelease.budget.queue <:+ s.budget.queue :=
  State.afterRelease_keeps (P := fun u => u.budget.queue <:+ s.budget.queue)
    (fun _ e rest h hq _ => (List.suffix_cons e rest).trans (hq ▸ h)) (fun _ _ h _ _ => h) s (List.suffix_refl _)

theorem State.queue_reportPresented (s : State) (p : PortId) (c : Sig) :
    (s.reportPresented p c).budget.queue <:+ s.budget.queue := by
  unfold State.reportPresented
  split
  · have h := (s.fallGrant p c.offered).queue_afterRelease
    rwa [State.queue_fallGrant] at h
  · exact List.suffix_refl _

theorem State.queue_towardStep (s : State) (p : PortId) (st : TrialStep) :
    (s.towardStep p st).budget.queue <:+ s.budget.queue := by
  unfold State.towardStep State.stepReached
  split
  · cases st.kind <;> exact s.queue_reportPresented p st.sig
  · exact List.suffix_refl _

/-- A walk serves the front of the queue at most, or puts its own port at the tail. -/
theorem State.queue_walk (s : State) (p : PortId) :
    ∃ l, l <:+ s.budget.queue ∧ ((s.walk p).budget.queue = l
      ∨ ∃ c, (s.walk p).budget.queue = l ++ [⟨p, c, 200 * s.budget.waitLimit⟩]) := by
  unfold State.walk
  cases (s.port p).session with
  | none => exact ⟨_, List.suffix_refl _, Or.inl rfl⟩
  | some x =>
    dsimp only
    cases x.remaining with
    | nil =>
      unfold State.exhaust
      dsimp only
      split
      · exact ⟨_, State.queue_reportPresented (s.modSession p _) p .P, Or.inl rfl⟩
      · exact ⟨_, List.suffix_refl _, Or.inl rfl⟩
    | cons st rest =>
      unfold State.takeHead
      dsimp only
      split
      · exact ⟨_, State.queue_towardStep (s.setCurrent p st rest) p st, Or.inl rfl⟩
      · split
        · exact ⟨_, State.queue_towardStep ((s.setCurrent p st rest).setGrant p st.sig.offered) p st, Or.inl rfl⟩
        · exact ⟨_, List.suffix_refl _, Or.inr ⟨st.sig, rfl⟩⟩

/-- The queue's entries of the other ports, then those of one port. -/
theorem queue_split {l : List QueueEntry} (hl : ∀ e, e ∈ l → e.port ≠ p) {m : List QueueEntry} {w : Nat}
    (hm : m = l ∨ ∃ c, m = l ++ [⟨p, c, w⟩]) :
    m = (m.filter fun e => e.port ≠ p) ++ (m.filter fun e => e.port = p) ∧ (m.filter fun e => e.port ≠ p) = l
      ∧ ((m.filter fun e => e.port = p) = [] ∨ ∃ c, (m.filter fun e => e.port = p) = [⟨p, c, w⟩]) := by
  have h1 : (l.filter fun e => e.port ≠ p) = l := List.filter_eq_self.mpr fun e he => by simpa using hl e he
  have h2 : (l.filter fun e => e.port = p) = [] := List.filter_eq_nil_iff.mpr fun e he => by simpa using hl e he
  rcases hm with rfl | ⟨c, rfl⟩
  · rw [h1, h2]
    exact ⟨(List.append_nil _).symm, rfl, Or.inl rfl⟩
  · rw [List.filter_append, List.filter_append, h1, h2]
    simp

theorem State.not_mem_of_queued (h : s.queued p = false) {l : List QueueEntry} (hl : l <:+ s.budget.queue)
    (e : QueueEntry) (he : e ∈ l) : e.port ≠ p := fun hp => by
  have : s.queued p = true := List.any_eq_true.mpr ⟨e, hl.subset he, by simp [hp]⟩
  rw [h] at this
  cases this

/-! ### A walk at a port whose grant is what it shows -/

/-- What a walk at a port leaves of the other ports and the arbiter when its own grant is exact: nothing is released, its
grant may rise through an empty queue, or its port joins the tail. -/
structure Asked (p : PortId) (s t : State) : Prop where
  ports : ∀ r, r ≠ p → t.port r = s.port r
  groups : ∀ g, g ≠ portGroup p → t.group g = s.group g
  identity : (t.group (portGroup p)).pending &&& Kind.identity.mask
    = (s.group (portGroup p)).pending &&& Kind.identity.mask
  budget : t.budget = s.budget
    ∨ (s.budget.queue = [] ∧ s.budget.pendingTotal = none ∧ ∃ g, t.budget = (s.setGrant p g).budget)
    ∨ ∃ c, t.budget = { s.budget with queue := s.budget.queue ++ [⟨p, c, 200 * s.budget.waitLimit⟩] }

/-- A raise of another kind leaves a kind's pending bit. -/
theorem pending_raisePort (s : State) (p : PortId) {k : Kind} {m : Half} (hk : k.mask &&& m = 0) :
    ((s.raisePort p k).group (portGroup p)).pending &&& m = (s.group (portGroup p)).pending &&& m := by
  rw [(raisedIn_raisePort s p k).1]
  ext i hi
  have h : (k.mask &&& m)[i] = false := by rw [hk]; exact BitVec.getElem_zero hi
  rw [BitVec.getElem_and] at h
  rw [BitVec.getElem_and, BitVec.getElem_and, BitVec.getElem_or, Bool.and_or_distrib_right, h, Bool.or_false]

/-- The other ports, every other group and the arbiter are the same, and IDENTITY is pending or not as it was. -/
structure Untouched (p : PortId) (s t : State) : Prop where
  ports : ∀ r, r ≠ p → t.port r = s.port r
  groups : ∀ g, g ≠ portGroup p → t.group g = s.group g
  identity : (t.group (portGroup p)).pending &&& Kind.identity.mask
    = (s.group (portGroup p)).pending &&& Kind.identity.mask
  budget : t.budget = s.budget

theorem Untouched.refl (p : PortId) (s : State) : Untouched p s s := ⟨fun _ _ => rfl, fun _ _ => rfl, rfl, rfl⟩

theorem Untouched.modPort (h : Untouched p s t) (f : Port → Port) : Untouched p s (t.modPort p f) :=
  ⟨fun r hr => (State.port_modPort_ne _ _ _ _ hr).trans (h.ports r hr), h.groups, h.identity, h.budget⟩

theorem Untouched.raisePort (h : Untouched p s t) {k : Kind} (hk : k.mask &&& Kind.identity.mask = 0) :
    Untouched p s (t.raisePort p k) :=
  ⟨h.ports, fun g hg => (State.group_raise_ne _ _ _ _ hg).trans (h.groups g hg),
    (pending_raisePort t p hk).trans h.identity, h.budget⟩

theorem Untouched.trans (h : Untouched p s t) (g : Untouched p t u) : Untouched p s u :=
  ⟨fun r hr => (g.ports r hr).trans (h.ports r hr), fun r hr => (g.groups r hr).trans (h.groups r hr),
    g.identity.trans h.identity, g.budget.trans h.budget⟩

theorem State.reportPresented_exact {c : Sig} (h : s.grant p ≤ c.offered) : s.reportPresented p c = s :=
  if_neg (Nat.not_lt.mpr h)

/-- A step toward a signature that offers the grant when it is shown releases nothing. -/
theorem Untouched.towardStep (hb : (s.port p).hubTurns st.sig = false)
    (hex : (s.port p).shows st.sig = true → s.grant p ≤ st.sig.offered) : Untouched p s (s.towardStep p st) := by
  unfold State.towardStep
  rw [(s.port p).shows_iff_atOnce hb]
  split
  · rename_i hshow
    rw [State.reportPresented_exact (hex hshow)]
    unfold State.stepReached
    cases st.kind with
    | evaluate => exact (Untouched.refl p s).modPort _
    | present => exact ((Untouched.refl p s).modPort _).raisePort (by decide)
  · exact (Untouched.refl p s).modPort _

/-- A walk with an unblocked head at a port whose grant is what it shows. -/
theorem Asked.walk (hb : (s.port p).headBlocked = false)
    (hex : ∀ c, (s.port p).shows c = true → c.offered = s.grant p) : Asked p s (s.walk p) := by
  have asked : ∀ {v}, Untouched p s v → Asked p s v := fun h => ⟨h.ports, h.groups, h.identity, Or.inl h.budget⟩
  unfold State.walk
  cases hx : (s.port p).session with
  | none => exact asked (Untouched.refl p s)
  | some x =>
    dsimp only
    cases hr : x.remaining with
    | nil =>
      have h1 := (Untouched.refl p s).modPort fun q =>
        { q with session := q.session.map fun y => { y with remaining := [], current := none } }
      have hport := State.port_modSession_same s p fun y => { y with remaining := [], current := none }
      unfold State.exhaust
      dsimp only
      split
      · rename_i hat
        have hshow : (s.port p).shows .P = true := by
          rw [hport] at hat
          exact hat
        rw [State.reportPresented_exact (s := s.modSession p _) (Nat.le_of_eq (hex _ hshow).symm)]
        exact asked ((h1.modPort _).raisePort (by decide))
      · exact asked (h1.modPort _)
    | cons st rest =>
      have h1 := (Untouched.refl p s).modPort fun q => q.onStep st rest
      have hport := s.port_setCurrent p st rest
      have hturn := Port.hubTurns_of_head hb hx hr
      unfold State.takeHead
      dsimp only
      split
      · refine asked (h1.trans (Untouched.towardStep (s := s.setCurrent p st rest) (by rw [hport]; exact hturn) fun h => ?_))
        rw [hport] at h
        exact Nat.le_of_eq (hex _ h).symm
      · split
        · rename_i hfit
          obtain ⟨hq, hpend, -⟩ := ((s.setCurrent p st rest).upgradeFits_iff p st.sig).mp hfit
          have h2 := Untouched.towardStep (s := (s.setCurrent p st rest).setGrant p st.sig.offered) (p := p) (st := st)
            (by rw [State.port_setGrant, hport]; exact hturn) fun _ => by rw [State.grant_setGrant_same]
          exact ⟨fun r hr => (h2.ports r hr).trans (h1.ports r hr), fun r hr => (h2.groups r hr).trans (h1.groups r hr),
            h2.identity.trans h1.identity,
            Or.inr (Or.inl ⟨hq, hpend, st.sig.offered, h2.budget⟩)⟩
        · exact ⟨fun r hr => (State.port_modSession_ne _ _ _ _ hr).trans (h1.ports r hr),
            fun _ hg => State.group_raise_ne _ _ _ _ hg,
            pending_raisePort ((s.setCurrent p st rest).setQueue _) p (by decide), Or.inr (Or.inr ⟨st.sig, rfl⟩)⟩

/-! ### Service of the other ports -/

/-- What a service of the queue makes of an entry that was in it: it waits on, or its port was granted (R129). -/
def Answered (s u : State) (e : QueueEntry) : Prop :=
  (e ∈ u.budget.queue ∧ u.grant e.port = s.grant e.port ∧ u.port e.port = s.port e.port
      ∧ u.group (portGroup e.port) = s.group (portGroup e.port))
    ∨ (e ∉ u.budget.queue ∧ u.grant e.port = e.sig.offered ∧ (u.port e.port).phase = some .representing
      ∧ RaisedIn s u (portGroup e.port) .grant)

theorem Port.phase_granted (hx : q.session.isSome = true) (c : Sig) :
    ((q.requestRePresent c .sequencer).sessionRepresents).phase = some .representing := by
  obtain ⟨x, hx⟩ := Option.isSome_iff_exists.mp hx
  obtain ⟨y, hy, -⟩ := Port.session_of_unlit (q.unlit_requestRePresent c .sequencer) hx
  simp [Port.phase, Port.sessionRepresents, hy]

/-- One grant: its own entry is answered, the others wait on. -/
theorem Answered.grantHead {e e0 : QueueEntry} {rest : List QueueEntry} (hq : u.budget.queue = e0 :: rest)
    (hn : (u.budget.queue.map (·.port)).Nodup) (hx : (s.port e0.port).session.isSome = true)
    (he : e ∈ s.budget.queue) (hs : (s.budget.queue.map (·.port)).Nodup) (hsub : e0 ∈ s.budget.queue)
    (h : Answered s u e) : Answered s (u.grantHead e0 rest) e := by
  rw [hq, List.map_cons, List.nodup_cons] at hn
  by_cases hport : e.port = e0.port
  · have hee : e = e0 := List.inj_on_of_nodup_map hs he hsub hport
    subst hee
    rcases h with ⟨-, -, hp, hg⟩ | ⟨hno, -⟩
    · refine Or.inr ⟨fun hm => hn.1 (List.mem_map_of_mem hm), ?_, ?_, ?_⟩
      · rw [State.grant_grantHead, if_pos rfl]
      · rw [State.port_grantHead_same]
        exact Port.phase_granted (by rw [hp]; exact hx) _
      · exact (raisedIn_raisePort ((u.setQueue rest).setGrant e.port e.sig.offered) e.port .grant).congr hg.symm rfl
    · exact absurd (hq ▸ List.mem_cons_self) hno
  · have hgrp : (u.grantHead e0 rest).group (portGroup e.port) = u.group (portGroup e.port) :=
      State.group_raise_ne _ _ _ _ (portGroup_ne hport)
    have hgrant : (u.grantHead e0 rest).grant e.port = u.grant e.port := by
      rw [State.grant_grantHead, if_neg hport]
    have hp : (u.grantHead e0 rest).port e.port = u.port e.port := State.port_grantHead_ne _ _ hport
    have hmem : e ∈ (u.grantHead e0 rest).budget.queue ↔ e ∈ u.budget.queue := by
      rw [hq]
      exact ⟨fun hm => List.mem_cons_of_mem _ hm, fun hm => (List.mem_cons.mp hm).resolve_left fun h => hport (by rw [h])⟩
    rcases h with ⟨hm, h1, h2, h3⟩ | ⟨hm, h1, h2, h3⟩
    · exact Or.inl ⟨hmem.mpr hm, hgrant.trans h1, hp.trans h2, hgrp.trans h3⟩
    · exact Or.inr ⟨fun h => hm (hmem.mp h), hgrant.trans h1, (congrArg Port.phase hp).trans h2, h3.congr rfl hgrp⟩

/-- Service answers every entry it takes and leaves the others. -/
theorem State.serve_answers (n : Nat) (hn : (s.budget.queue.map (·.port)).Nodup)
    (hx : ∀ e, e ∈ s.budget.queue → (s.port e.port).session.isSome = true) (e : QueueEntry) (he : e ∈ s.budget.queue) :
    Answered s (State.serve n s) e := by
  refine (State.serve_keeps (P := fun u => u.budget.queue <:+ s.budget.queue ∧ Answered s u e) ?_ n s
    ⟨List.suffix_refl _, Or.inl ⟨he, rfl, rfl, rfl⟩⟩).2
  intro u e0 rest ⟨hsuf, ha⟩ hq _
  have hmem : e0 ∈ s.budget.queue := hsuf.subset (hq ▸ List.mem_cons_self)
  refine ⟨(List.suffix_cons e0 rest).trans (hq ▸ hsuf), ha.grantHead hq ?_ (hx e0 hmem) he hn hmem⟩
  exact hn.sublist (hsuf.sublist.map _)

end Sys2Proof.Machine
end

section
/-! The end of a budget wait, and the edges of HENn. -/

namespace Sys2Proof.Machine

variable {s t u : State} {p : PortId} {q : Port} {x : Session} {st : TrialStep}

theorem Asked.of_untouched (h : Untouched p s u) (a : Asked p u t) : Asked p s t := by
  refine ⟨fun r hr => (a.ports r hr).trans (h.ports r hr), fun r hr => (a.groups r hr).trans (h.groups r hr),
    a.identity.trans h.identity, ?_⟩
  rcases a.budget with hb | ⟨hq, hp, g, hb⟩ | ⟨c, hb⟩
  · exact Or.inl (hb.trans h.budget)
  · rw [h.budget] at hq hp
    refine Or.inr (Or.inl ⟨hq, hp, g, hb.trans ?_⟩)
    unfold State.setGrant
    rw [h.budget]
  · exact Or.inr (Or.inr ⟨c, hb.trans (by rw [h.budget])⟩)

theorem Asked.grant_ne (a : Asked p s t) {r : PortId} (hr : r ≠ p) : t.grant r = s.grant r := by
  rcases a.budget with hb | ⟨-, -, g, hb⟩ | ⟨c, hb⟩
  · exact congrArg (fun b : Budget => b.grants[r.val]) hb
  · exact (congrArg (fun b : Budget => b.grants[r.val]) hb).trans (State.grant_setGrant_ne _ _ _ _ hr)
  · have h := congrArg (fun b : Budget => b.grants[r.val]) hb
    exact h

theorem Asked.queue (a : Asked p s t) : t.budget.queue = s.budget.queue
    ∨ ∃ c, t.budget.queue = s.budget.queue ++ [⟨p, c, 200 * s.budget.waitLimit⟩] := by
  rcases a.budget with hb | ⟨-, -, g, hb⟩ | ⟨c, hb⟩
  · exact Or.inl (congrArg Budget.queue hb)
  · have h := congrArg Budget.queue hb
    exact Or.inl h
  · exact Or.inr ⟨c, congrArg Budget.queue hb⟩

theorem Asked.grants (a : Asked p s t) (hp : s.budget.pendingTotal ≠ none ∨ s.budget.queue ≠ []) :
    t.budget.grants = s.budget.grants ∧ t.budget.total = s.budget.total := by
  rcases a.budget with hb | ⟨hq, hn, -⟩ | ⟨c, hb⟩
  · exact ⟨congrArg Budget.grants hb, congrArg Budget.total hb⟩
  · rcases hp with h | h
    · exact absurd hn h
    · exact absurd hq h
  · have hg := congrArg Budget.grants hb
    have ht := congrArg Budget.total hb
    exact ⟨hg, ht⟩

theorem State.queued_of_mem {e : QueueEntry} (he : e ∈ s.budget.queue) : s.queued e.port = true :=
  List.any_eq_true.mpr ⟨e, he, by simp⟩

theorem State.mem_of_queued {r : PortId} (h : s.queued r = true) : ∃ e, e ∈ s.budget.queue ∧ e.port = r := by
  obtain ⟨e, he, hp⟩ := List.any_eq_true.mp h
  exact ⟨e, he, by simpa using hp⟩

theorem OthersKept.grant (h : OthersKept p s t) {r : PortId} (hr : r ≠ p) (hq : s.queued r = false) :
    t.grant r = s.grant r := by
  obtain ⟨-, -, -, -, -, -, hrest⟩ := h
  obtain ⟨-, hg, -⟩ := hrest r hr hq
  exact hg

/-! ### The step after a refusal or a skip -/

/-- The step after a skip is a walk with an unblocked head, after a computation or without one. -/
theorem State.nextStep_walk (s : State) (p : PortId) :
    ∃ z, s.nextStep p = z.walk p ∧ (z.port p).headBlocked = false ∧ Untouched p s z
      ∧ ∀ c, (z.port p).shows c = (s.port p).shows c := by
  have computed : (s.compute p false).walk p = s.recompute p ∧ ((s.compute p false).port p).headBlocked = false
      ∧ Untouched p s (s.compute p false) ∧ ∀ c, ((s.compute p false).port p).shows c = (s.port p).shows c :=
    ⟨(s.recompute_eq p).symm, s.headBlocked_compute p false, (Untouched.refl p s).modPort _,
      fun c => by rw [State.port_compute]; rfl⟩
  obtain ⟨heq, hb, hu, hs⟩ := computed
  unfold State.nextStep
  split
  · exact ⟨_, heq.symm, hb, hu, hs⟩
  · cases hblk : (s.port p).headBlocked with
    | false => exact ⟨s, State.takeStep_unblocked hblk, hblk, Untouched.refl p s, fun _ => rfl⟩
    | true => exact ⟨_, (State.takeStep_blocked hblk).trans heq.symm, hb, hu, hs⟩

theorem Asked.nextStep (hex : ∀ c, (s.port p).shows c = true → c.offered = s.grant p) : Asked p s (s.nextStep p) := by
  obtain ⟨z, heq, hb, hu, hs⟩ := s.nextStep_walk p
  rw [heq]
  refine Asked.of_untouched hu (Asked.walk hb fun c hc => ?_)
  rw [hs] at hc
  rw [show z.grant p = s.grant p from congrArg (fun b : Budget => b.grants[p.val]) hu.budget]
  exact hex c hc

/-- What the step after a skip makes of the session, by the mark and the head (R48, R49). -/
theorem State.nextStep_stepped (hx : (s.port p).session = some x) :
    (x.recomputeDue = false → (s.port p).headBlocked = false → Stepped p s (s.nextStep p) x x.remaining)
      ∧ (x.recomputeDue = true ∨ (s.port p).headBlocked = true →
          Stepped p s (s.nextStep p) (x.computedNow (s.port p)) (s.computedSteps false (s.port p).modeNow x)) := by
  have hdue : s.recomputeDue p = x.recomputeDue := by
    unfold State.recomputeDue
    rw [hx]
    rfl
  unfold State.nextStep
  rw [hdue]
  refine ⟨fun hd hb => ?_, fun h => ?_⟩
  · rw [hd, if_neg Bool.false_ne_true, State.takeStep_unblocked hb]
    exact State.walk_stepped hx hb
  · cases hd : x.recomputeDue with
    | true =>
      rw [if_pos rfl]
      exact State.recompute_stepped hx
    | false =>
      rw [if_neg Bool.false_ne_true, State.takeStep_blocked (h.resolve_left (by simp [hd]))]
      exact State.recompute_stepped hx

/-! ### The end of a budget wait -/

/-- Settles O49: a wait's end withdraws the entry, serves the queue, and takes the next step. -/
theorem waitExpirySkipsTheSignature : Obligations.WaitExpirySkipsTheSignature := by
  unfold Obligations.WaitExpirySkipsTheSignature
  intro s p hqueue hsession hexact hq x hx
  have he : exec (.budgetWaitExpiry p) s = .next (((s.withdraw p).afterRelease).nextStep p) :=
    congrArg Host.Outcome.next (if_pos hq)
  have hl := local_of_exec (p := p) (r := 0) (by simp [portEvents]) he
  have hr := released (p := p) (s := s.withdraw p) (State.queued_withdraw_same _ _)
  have hport : (s.withdraw p).afterRelease.port p = s.port p := hr.port
  have hgrant : (s.withdraw p).afterRelease.grant p = s.grant p := hr.grant
  have hmem : (s.withdraw p).afterRelease.memory = s.memory := hr.memory
  have hsteps := fun m => show (s.withdraw p).afterRelease.computedSteps false m x = s.computedSteps false m x by
    unfold State.computedSteps State.boundEntry State.entry
    rw [hmem]
  have hx' : ((s.withdraw p).afterRelease.port p).session = some x := by rw [hport]; exact hx
  have hasked : Asked p (s.withdraw p).afterRelease (((s.withdraw p).afterRelease).nextStep p) := by
    refine Asked.nextStep fun c hc => ?_
    rw [hport, Port.shows, Bool.and_eq_true, Option.isNone_iff_eq_none, beq_iff_eq] at hc
    obtain ⟨hre, hpres⟩ := hc
    rw [hgrant]
    exact (hexact p).1 c hpres hre
  obtain ⟨hplain, hcomputed⟩ := State.nextStep_stepped hx'
  rw [hport] at hplain hcomputed
  have hsuf := (s.withdraw p).queue_afterRelease
  have hno := State.not_mem_of_queued (State.queued_withdraw_same s p) hsuf
  obtain ⟨hsplit, hrest, -⟩ := queue_split hno hasked.queue
  have hkeep : ∀ e, e ∈ (s.withdraw p).afterRelease.budget.queue →
      e ∈ (((s.withdraw p).afterRelease).nextStep p).budget.queue := fun e hm => by
    rw [← hrest] at hm
    exact (List.mem_filter.mp hm).1
  have hsome : ∀ e, e ∈ (s.withdraw p).budget.queue → ((s.withdraw p).port e.port).session.isSome = true := fun e hm => by
    have hph := (hqueue.2 e.port).mp (State.queued_of_mem (List.mem_of_mem_filter hm))
    cases hs : (s.port e.port).session with
    | none => simp [State.phase, hs] at hph
    | some y => exact (congrArg Option.isSome hs).trans rfl
  have hnodup : ((s.withdraw p).budget.queue.map (·.port)).Nodup :=
    hqueue.1.sublist (List.filter_sublist.map _)
  have hanswer : s.budget.pendingTotal = none → ∀ e, e ∈ (s.withdraw p).budget.queue →
      Answered (s.withdraw p) (s.withdraw p).afterRelease e := fun hn e hm => by
    rw [State.afterRelease, show (s.withdraw p).budget.pendingTotal = none from hn]
    exact State.serve_answers _ hnodup hsome e hm
  refine ⟨_, he, hl.1, hl.2.1, ?memory, ?record, hsplit, ?suffix, fun hn => ⟨?granted, ?grants, ?head⟩, fun hn hv => ?pending,
    fun hd hb => ?steps, fun hd => ?due, fun hd hb => ?blocked⟩
  case memory =>
    by_cases h : x.recomputeDue = false ∧ (s.port p).headBlocked = false
    · exact (hplain h.1 h.2).memory.trans hmem
    · exact (hcomputed (by simpa [or_iff_not_imp_left] using h)).memory.trans hmem
  case record =>
    have record : ∃ y, ((((s.withdraw p).afterRelease).nextStep p).port p).session = some y ∧ y.verdicts = x.verdicts
        ∧ y.number = x.number := by
      by_cases h : x.recomputeDue = false ∧ (s.port p).headBlocked = false
      · obtain ⟨y, hy, hc, -⟩ := (hplain h.1 h.2).session
        obtain ⟨hnum, -, -, -, -, hver, -⟩ := Session.core_data hc
        exact ⟨y, hy, hver, hnum⟩
      · obtain ⟨y, hy, hc, -⟩ := (hcomputed (by simpa [or_iff_not_imp_left] using h)).session
        obtain ⟨hnum, -, -, -, -, hver, -⟩ := Session.core_data hc
        exact ⟨y, hy, hver, hnum⟩
    obtain ⟨y, hy, hver, hnum⟩ := record
    rw [hy]
    simp [hver, hnum]
  case suffix =>
    rw [hrest]
    exact hsuf
  case granted =>
    intro e hm hne hgone
    have hm' : e ∈ (s.withdraw p).budget.queue := List.mem_filter.mpr ⟨hm, by simpa using hne⟩
    rcases hanswer hn e hm' with ⟨hin, -⟩ | ⟨-, hg, hph, hraised⟩
    · rw [State.queued_of_mem (hkeep e hin)] at hgone
      cases hgone
    · refine ⟨(hasked.grant_ne hne).trans hg, ?_, hraised.congr rfl (hasked.groups _ (portGroup_ne hne))⟩
      unfold State.phase
      rw [hasked.ports _ hne]
      exact hph
  case grants =>
    intro r hr hsame
    cases hqr : s.queued r with
    | false => exact hl.1.grant hr hqr
    | true =>
      rw [hqr] at hsame
      obtain ⟨e, hm, rfl⟩ := State.mem_of_queued hsame
      rw [hsplit] at hm
      have hin : e ∈ (s.withdraw p).afterRelease.budget.queue := by
        rw [← hrest]
        exact (List.mem_append.mp hm).resolve_right fun h => hr (by simpa using (List.mem_filter.mp h).2)
      rcases hanswer hn e (hsuf.subset hin) with ⟨-, hg, -⟩ | ⟨hout, -⟩
      · exact (hasked.grant_ne hr).trans hg
      · exact absurd hin hout
  case head =>
    intro e hhead
    rw [hrest] at hhead
    have hne : (s.withdraw p).afterRelease.budget.queue ≠ [] := fun h => by
      rw [h] at hhead
      cases hhead
    obtain ⟨hg, ht⟩ := hasked.grants (Or.inr hne)
    have h := State.afterRelease_head (s.withdraw p) hn e hhead
    unfold State.headroom State.need State.sumGrants State.grant at h ⊢
    rw [hg, ht]
    exact h
  case pending =>
    obtain ⟨total, htot⟩ := Option.isSome_iff_exists.mp hn
    have hsame : (s.withdraw p).afterRelease = s.withdraw p := by
      rw [State.afterRelease, show (s.withdraw p).budget.pendingTotal = some total from htot]
      exact if_neg (by rw [show (s.withdraw p).noVictims = false from hv]; exact Bool.false_ne_true)
    refine ⟨by rw [hrest, hsame]; rfl, ?_⟩
    have hpend : (s.withdraw p).afterRelease.budget.pendingTotal ≠ none := by
      rw [hsame, show (s.withdraw p).budget.pendingTotal = some total from htot]
      exact Option.some_ne_none total
    rw [(hasked.grants (Or.inl hpend)).1, hsame]
    rfl
  case steps =>
    obtain ⟨-, y, hy, -, htook⟩ := (hplain hd hb).of_port hmem (congrArg Port.presented hport)
      (congrArg Port.rePresent hport) hgrant
    rw [hy]
    exact htook
  case due =>
    obtain ⟨-, y, hy, hc, htook⟩ := (hcomputed (Or.inl hd)).of_port hmem (congrArg Port.presented hport)
      (congrArg Port.rePresent hport) hgrant
    obtain ⟨-, hmode, -, -, -, -, -, -, hdue, -⟩ := Session.core_data hc
    rw [hsteps] at htook
    have hmode' : y.mode = (s.port p).modeNow := hmode
    have hdue' : y.recomputeDue = false := hdue
    rw [hy]
    simp [hmode', hdue', htook]
  case blocked =>
    obtain ⟨-, y, hy, hc, htook⟩ := (hcomputed (Or.inr hb)).of_port hmem (congrArg Port.presented hport)
      (congrArg Port.rePresent hport) hgrant
    obtain ⟨-, hmode, -, -, -, -, -, -, hdue, -⟩ := Session.core_data hc
    rw [hsteps, Port.modeNow_of_headBlocked hb] at htook
    have hmode' : y.mode = .data := hmode.trans (Port.modeNow_of_headBlocked hb)
    have hdue' : y.recomputeDue = false := hdue
    rw [hy]
    simp [hmode', hdue', htook]

/-! ### The edges of HENn -/

/-- The port unit with HENn at a level. -/
def Port.withHen (b : Bool) (q : Port) : Port := { q with pins := { q.pins with hen := b } }

theorem exec_hennRising (hr : s.host.inReset = false) :
    exec (.hennRising p) s = .next ((s.modPins p fun x => { x with hen := true }).hubRises p) :=
  congrArg Host.Outcome.next (State.running_running _ _ hr)

theorem exec_hennFalling (hr : s.host.inReset = false) :
    exec (.hennFalling p) s = .next ((s.modPins p fun x => { x with hen := false }).hubFalls p) :=
  congrArg Host.Outcome.next (State.running_running _ _ hr)

/-- HENn rising with something to take, at the port itself. -/
theorem State.hubRises_takes (h : (s.port p).hubTakes = true) :
    (s.hubRises p).port p = (s.port p).hubTakesLines ∧ (s.hubRises p).grant p = s.grant p
      ∧ (s.hubRises p).queued p = false ∧ (s.hubRises p).memory = s.memory := by
  have hport : (s.modPort p Port.hubTakesLines).port p = (s.port p).hubTakesLines := State.port_modPort_same _ _ _
  unfold State.hubRises
  rw [if_pos h]
  dsimp only
  cases hq : s.queued p with
  | false => exact ⟨hport, rfl, hq, rfl⟩
  | true =>
    have r := released (p := p) (s := (s.modPort p Port.hubTakesLines).withdraw p) (State.queued_withdraw_same _ _)
    exact ⟨r.port.trans hport, r.grant, r.queued, r.memory⟩

theorem Port.hubTakesLines_flight (h : q.hubTakes = true) {r : RePresent} (hr : q.rePresent = some r) :
    q.hubTakesLines.presented = q.presented
      ∧ q.hubTakesLines.rePresent = some { r with target := .P, hubRetarget := true, requester := .hub } := by
  simp [Port.hubTakesLines, Port.hubLines, h, hr, RePresent.retarget]

theorem Port.hubTakesLines_start (h : q.hubTakes = true) (hr : q.rePresent = none) :
    q.hubTakesLines.presented = none ∧ q.hubTakesLines.detector = .off
      ∧ q.hubTakesLines.rePresent = some ⟨.P, 50, true, .hub, q.presented⟩ := by
  simp [Port.hubTakesLines, Port.hubLines, h, hr, Port.startRePresent, Port.goNeutral, rePresentTime]

theorem Port.hubTakesLines_timers (q : Port) :
    q.hubTakesLines.timers.settle = none ∧ q.hubTakesLines.timers.identityWait = none
      ∧ q.hubTakesLines.timers.evaluation = none := ⟨rfl, rfl, rfl⟩

theorem Port.unlit_hubLines (q : Port) : q.hubLines.unlit = q.unlit := by
  unfold Port.hubLines
  split
  · cases q.rePresent with
    | none => exact q.unlit_goNeutral
    | some r => rfl
  · rfl

theorem Port.session_hubTakesLines (hx : q.session = some x) :
    ∃ y : Session, q.hubTakesLines.session = some y.hubTaken ∧ y.unphased = x.unphased ∧ y.phase = x.phase := by
  obtain ⟨y, hy, hu⟩ := Port.session_of_unlit q.unlit_hubLines hx
  refine ⟨y, by simp [Port.hubTakesLines, hy], hu, ?_⟩
  unfold Port.hubLines at hy
  split at hy
  · cases hr : q.rePresent with
    | none =>
      simp only [hr, Port.startRePresent, Port.goNeutral, hx, Option.map_some, Option.some.injEq] at hy
      rw [← hy]
      exact (x.follow_keeps none).1
    | some r =>
      simp only [hr, hx, Option.some.injEq] at hy
      rw [← hy]
  · rw [hx] at hy
    rw [Option.some.inj hy]

/-- What the hub takes from a session. -/
theorem Session.hubTaken_data (x : Session) :
    x.hubTaken.target = some .P ∧ x.hubTaken.current = none
      ∧ x.hubTaken.phase = x.phase.map (fun _ => .representing) ∧ x.hubTaken.held = x.held.map (fun _ => .representing)
      ∧ x.hubTaken.verdicts = x.verdicts ∧ x.hubTaken.number = x.number
      ∧ ((x.phase = some .evaluating ∨ x.held = some .evaluating) →
          x.hubTaken.sum = 0 ∧ x.hubTaken.count = 0 ∧ x.hubTaken.probeSeen = false) := by
  unfold Session.hubTaken Session.abandon
  by_cases h : x.phase = some .evaluating ∨ x.held = some .evaluating
  · rw [if_pos (by simpa using h)]
    exact ⟨rfl, rfl, rfl, rfl, rfl, rfl, fun _ => ⟨rfl, rfl, rfl⟩⟩
  · rw [if_neg (by simpa using h)]
    exact ⟨rfl, rfl, rfl, rfl, rfl, rfl, fun h' => absurd h' h⟩

theorem Session.hubTaken_any {y : Session} (hu : y.unphased = x.unphased) (hp : y.phase = x.phase) :
    (y.hubTaken.target == some .P && y.hubTaken.current == none
      && y.hubTaken.phase == x.phase.map (fun _ => .representing)
      && y.hubTaken.held == x.held.map (fun _ => .representing)
      && y.hubTaken.verdicts == x.verdicts && y.hubTaken.number == x.number
      && (!(x.phase == some .evaluating || x.held == some .evaluating)
        || (y.hubTaken.sum == 0 && y.hubTaken.count == 0 && !y.hubTaken.probeSeen))) = true := by
  have hh := congrArg Session.held hu
  have hv := congrArg Session.verdicts hu
  have hn := congrArg Session.number hu
  have hh' : y.held = x.held := hh
  have hv' : y.verdicts = x.verdicts := hv
  have hn' : y.number = x.number := hn
  obtain ⟨h1, h2, h3, h4, h5, h6, h7⟩ := y.hubTaken_data
  rw [hp, hh'] at h7
  by_cases he : x.phase = some .evaluating ∨ x.held = some .evaluating
  · obtain ⟨a, b, c⟩ := h7 he
    simp [h1, h2, h3, h4, h5, h6, hp, hh', hv', hn', a, b, c]
  · obtain ⟨hne1, hne2⟩ := not_or.mp he
    simp [h1, h2, h3, h4, h5, h6, hp, hh', hv', hn', hne1, hne2]

theorem State.hubRises_waits (ht : (s.port p).hubTakes = false) (hw : (s.port p).waitsChargeOnly = true) :
    s.hubRises p = ((s.withdraw p).afterRelease).recompute p := by
  unfold State.hubRises
  rw [ht, hw]
  rfl

theorem State.hubRises_idle (ht : (s.port p).hubTakes = false) (hw : (s.port p).waitsChargeOnly = false) :
    s.hubRises p = s := by
  unfold State.hubRises
  rw [ht, hw]
  rfl

theorem State.hubFalls_climbs (hs : (s.port p).state = .occupied) (hup : (s.port p).policy.upgradeOnRelease = true)
    (hx : (s.port p).session = some x) (hp : x.phase = some .steady) (hshed : x.shed = false) :
    s.hubFalls p = s.recompute p := by
  simp [State.hubFalls, hs, hup, hx, hp, hshed]

theorem State.hubFalls_idle (h : (s.port p).state ≠ .occupied ∨ (s.port p).policy.upgradeOnRelease = false
      ∨ s.phase p ≠ some .steady ∨ (s.port p).session.any (·.shed) = true) : s.hubFalls p = s := by
  unfold State.hubFalls
  refine if_neg fun hc => ?_
  simp only [Bool.and_eq_true, decide_eq_true_eq] at hc
  obtain ⟨⟨hs, hup⟩, hany⟩ := hc
  cases hx : (s.port p).session with
  | none => simp [hx] at hany
  | some x =>
    have hst : x.phase = some .steady ∧ x.shed = false := by simpa [hx] using hany
    have hphase : s.phase p = some .steady := by
      unfold State.phase
      rw [hx]
      exact hst.1
    rcases h with h | h | h | h
    · exact h hs
    · simp [hup] at h
    · exact h hphase
    · simp [hx, hst.2] at h

/-- Settles O39: a rising HENn takes charge-only lines to P or computes anew, a falling one lets a STEADY session climb. -/
theorem hubEdgesTakeAndGiveBackTheLines : Obligations.HubEdgesTakeAndGiveBackTheLines := by
  unfold Obligations.HubEdgesTakeAndGiveBackTheLines
  intro s p hr
  have hx := exec_hennRising (p := p) hr
  have hl := local_of_exec (p := p) (r := 0) (by simp [portEvents]) hx
  have hfx := exec_hennFalling (p := p) hr
  have hfl := local_of_exec (p := p) (r := 0) (by simp [portEvents]) hfx
  have hport : (s.modPins p fun x => { x with hen := true }).port p = (s.port p).withHen true :=
    State.port_modPins_same s p fun x => { x with hen := true }
  have hfport : (s.modPins p fun x => { x with hen := false }).port p = (s.port p).withHen false :=
    State.port_modPins_same s p fun x => { x with hen := false }
  refine ⟨fun ht => ?takes, fun ht hw => ?recorded, fun ht hw x hses => ?waits, fun hs hup x hses hph hshed => ?climbs,
    fun h => ?falls⟩
  case takes =>
    obtain ⟨hafter, hgrant, hq, hmem⟩ :=
      State.hubRises_takes (s := s.modPins p fun x => { x with hen := true }) (p := p) (by rw [hport]; exact ht)
    rw [hport] at hafter
    obtain ⟨t1, t2, t3⟩ := Port.hubTakesLines_timers ((s.port p).withHen true)
    obtain ⟨k1, -, -⟩ := Port.hubTakesLines_keeps ((s.port p).withHen true)
    refine ⟨_, hx, hl.1, hl.2.1, ?_, hq, hgrant, hmem, ?_⟩
    · rw [hafter]
      have h := congrArg Port.pins (Port.unlit_hubLines ((s.port p).withHen true))
      have h' := congrArg Pins.hen h
      exact h'
    · rw [hafter]
      refine ⟨k1, t1, t2, t3, fun hre c hc => ?_, fun r hre => ?_, fun x hses => ?_⟩
      · obtain ⟨h1, h2, h3⟩ := Port.hubTakesLines_start
          (q := ((s.port p).withHen true)) ht hre
        exact ⟨h1, h2, h3.trans (congrArg (fun o => some (⟨.P, 50, true, .hub, o⟩ : RePresent)) hc)⟩
      · exact Port.hubTakesLines_flight (q := ((s.port p).withHen true)) ht hre
      · obtain ⟨y, hy, hu, hp⟩ := Port.session_hubTakesLines
          (q := ((s.port p).withHen true)) (x := x) hses
        rw [hy]
        exact Session.hubTaken_any hu hp
  case recorded =>
    have hid : (s.modPins p fun x => { x with hen := true }).hubRises p = s.modPins p fun x => { x with hen := true } :=
      State.hubRises_idle (by rw [hport]; exact ht) (by rw [hport]; exact hw)
    exact ⟨_, hx.trans (congrArg _ hid), onlyPort_modPort _ _ _, hport⟩
  case waits =>
    rw [State.hubRises_waits (by rw [hport]; exact ht) (by rw [hport]; exact hw)] at hx hl
    have hr' := released (p := p) (s := (s.modPins p fun x => { x with hen := true }).withdraw p)
      (State.queued_withdraw_same _ _)
    have hport' := hr'.port.trans hport
    have hgrant : ((s.modPins p fun x => { x with hen := true }).withdraw p).afterRelease.grant p = s.grant p := hr'.grant
    have hmem : ((s.modPins p fun x => { x with hen := true }).withdraw p).afterRelease.memory = s.memory := hr'.memory
    have hwait : ((s.modPins p fun x => { x with hen := true }).withdraw p).afterRelease.budget.waitLimit
        = s.budget.waitLimit := (Acts.refl p ((s.modPins p fun x => { x with hen := true }).withdraw p)).afterRelease.waitLimit
    have hsuf := ((s.modPins p fun x => { x with hen := true }).withdraw p).queue_afterRelease
    have hstep := State.recompute_stepped (p := p) (x := x)
      (s := ((s.modPins p fun x => { x with hen := true }).withdraw p).afterRelease) (by rw [hport']; exact hses)
    have hhen := congrArg (fun q : Port => q.pins.hen) hstep.frame
    rw [hport'] at hstep hhen
    obtain ⟨hmem', y, hy, hc, htook⟩ := hstep.of_port hmem (by rw [hport']; rfl) (by rw [hport']; rfl) hgrant
    obtain ⟨-, hmode, -, -, -, hver, -, -, hdue, -⟩ := Session.core_data hc
    obtain ⟨l, hlsuf, hlq⟩ := State.queue_walk
      ((((s.modPins p fun x => { x with hen := true }).withdraw p).afterRelease).compute p false) p
    rw [← State.recompute_eq] at hlq
    have hno : ∀ e, e ∈ l → e.port ≠ p :=
      State.not_mem_of_queued (State.queued_withdraw_same (s.modPins p fun x => { x with hen := true }) p)
        (hlsuf.trans hsuf)
    obtain ⟨hsplit, hrest, hown⟩ := queue_split hno hlq
    refine ⟨_, hx, hl.1, hl.2.1, hhen, hmem', ?_, hsplit, hrest ▸ hlsuf.trans hsuf, ?_⟩
    · have hsteps : ((s.modPins p fun x => { x with hen := true }).withdraw p).afterRelease.computedSteps false .data x
          = s.computedSteps false .data x := by
        unfold State.computedSteps State.boundEntry State.entry
        rw [hmem]
      have hmode' : y.mode = .data := hmode
      have hdue' : y.recomputeDue = false := hdue
      have hver' : y.verdicts = x.verdicts := hver
      have htook' : y.took (s.port p) (s.grant p) (s.computedSteps false .data x) = true := hsteps ▸ htook
      rw [hy]
      simp [hmode', hdue', hver', htook']
    · refine hown.imp_right fun ⟨c, hc⟩ => ⟨c, hc.trans ?_⟩
      rw [← hwait]
      rfl
  case climbs =>
    rw [State.hubFalls_climbs (x := x) (by rw [hfport]; exact hs) (by rw [hfport]; exact hup) (by rw [hfport]; exact hses)
      hph hshed] at hfx hfl
    have hstep := State.recompute_stepped (p := p) (x := x) (s := s.modPins p fun x => { x with hen := false })
      (by rw [hfport]; exact hses)
    have hhen := congrArg (fun q : Port => q.pins.hen) hstep.frame
    rw [hfport] at hstep hhen
    obtain ⟨hmem, y, hy, hc, htook⟩ := hstep.of_port (s := s) rfl (by rw [hfport]; rfl) (by rw [hfport]; rfl) rfl
    obtain ⟨-, hmode, -, -, -, hver, -, -, hdue, -⟩ := Session.core_data hc
    have hmode' : y.mode = .charge := hmode
    have hdue' : y.recomputeDue = false := hdue
    have hver' : y.verdicts = x.verdicts := hver
    have htook' : y.took (s.port p) (s.grant p) (s.computedSteps false .charge x) = true := htook
    refine ⟨_, hfx, hfl.1, hfl.2.1, hhen, hmem, ?_⟩
    rw [hy]
    simp [hmode', hdue', hver', htook']
  case falls =>
    have hid : (s.modPins p fun x => { x with hen := false }).hubFalls p = s.modPins p fun x => { x with hen := false } := by
      refine State.hubFalls_idle ?_
      unfold State.phase at h ⊢
      rw [hfport]
      exact h
    exact ⟨_, hfx.trans (congrArg _ hid), onlyPort_modPort _ _ _, hfport⟩

end Sys2Proof.Machine
end

section
/-! Computations in STEADY and their re-aim test; the end of an evaluation window. -/

namespace Sys2Proof.Machine

variable {s t u : State} {p : PortId} {q : Port} {x y : Session} {st : TrialStep}

/-! ### The re-aim test -/

/-- The computed steps depend on the Profile Memory and the session's record alone. -/
theorem State.computedSteps_congr (hm : t.memory = s.memory) (hc : y.core = x.core) (retry : Bool) (m : Mode) :
    t.computedSteps retry m y = s.computedSteps retry m x := by
  obtain ⟨-, -, -, -, hb, hv, -, -, -, hp⟩ := Session.core_data hc
  unfold State.computedSteps State.boundEntry State.entry
  rw [hm, hb, hv, hp]

theorem State.aims_congr (hm : t.memory = s.memory) (hb : y.boundSlot = x.boundSlot) {q' : Port}
    (hq : q'.presented = q.presented) (steps : List TrialStep) : t.aims y q' steps = s.aims x q steps := by
  unfold State.aims State.entry
  rw [hm, hb, hq]

theorem Session.reAimed_congr {q' : Port} (hp : q'.presented = q.presented) (hr : q'.rePresent = q.rePresent)
    (hh : q'.pins.hen = q.pins.hen) (y : Session) (t : State) (g : Nat) : y.reAimed t q' g = y.reAimed t q g := by
  have hs : ∀ c, q'.shows c = q.shows c := fun c => by
    unfold Port.shows
    rw [hp, hr]
  have hm : q'.modeNow = q.modeNow := by
    unfold Port.modeNow
    rw [hh]
  have ha : ∀ steps, t.aims y q' steps = t.aims y q steps := fun steps => State.aims_congr rfl rfl hp steps
  have ht : ∀ steps, y.took q' g steps = y.took q g steps := fun steps => by
    unfold Session.took
    simp only [hs]
  unfold Session.reAimed
  rw [hm, ha, ht]

theorem Entry.state_ne_pinned {e : Entry} (hp : e.pinned = none) (threshold : Nat) : e.state threshold ≠ .pinned := by
  by_cases ht : e.tallies = Tallies.zero
  · rw [Entry.state_new threshold hp ht]
    decide
  · cases hg : e.preferred with
    | none =>
      rw [Entry.state_unpreferred threshold hp ht hg]
      decide
    | some g =>
      rw [Entry.state_preferred threshold hp ht hg]
      split <;> decide

/-- The re-aim test on a computation just made is the test on its steps (R68). -/
theorem State.reAimPasses_compute (hx : (s.port p).session = some x) (hp : (s.port p).presented = x.presented) :
    (s.compute p false).reAimPasses p = s.aims x (s.port p) (s.computedSteps false (s.port p).modeNow x) := by
  have hport := State.port_compute s p false
  rw [hx] at hport
  unfold State.reAimPasses
  rw [hport]
  unfold State.aims
  dsimp only [Option.map_some]
  have hb : (s.compute p false).boundEntry { x with
      mode := sampledMode (s.port p).pins.hen
      remaining := s.computedSteps false (sampledMode (s.port p).pins.hen) x
      recomputeDue := false } = x.boundSlot.bind s.entry := rfl
  rw [hb, hp, show (s.port p).modeNow = sampledMode (s.port p).pins.hen from rfl]
  generalize x.boundSlot.bind s.entry = o
  generalize s.computedSteps false (sampledMode (s.port p).pins.hen) x = steps
  cases o with
  | none => rfl
  | some e =>
    cases steps with
    | nil => rfl
    | cons st rest =>
      have hmem : (s.compute p false).memory = s.memory := rfl
      simp only [List.head?_cons, hmem]
      cases hpin : e.pinned with
      | some g =>
        rw [Entry.state_pinned _ (by simp [hpin])]
        rfl
      | none =>
        cases hst : e.state s.memory.threshold with
        | pinned => exact absurd hst (Entry.state_ne_pinned hpin _)
        | settled => simp
        | tentative => simp
        | new => simp

/-- What a computation in STEADY leaves of a session at rest (R68, R110). -/
structure ReAimed (p : PortId) (s t : State) (x : Session) : Prop where
  memory : t.memory = s.memory
  trips : (t.port p).tripCount ≤ (s.port p).tripCount
  frame : { (t.port p).unwalked with session := none } = { (s.port p).unwalked with session := none }
  pending : Pending s t
  session : ∃ y, (t.port p).session = some y ∧ y.core = (x.computedNow (s.port p)).core
    ∧ (x.phase = some .steady → (s.port p).presented = x.presented → y.reAimed t (s.port p) (s.grant p) = true)
  rests : (s.compute p false).reAimPasses p = false →
    t.port p = { s.port p with session := some { x.computedNow (s.port p) with remaining := [] } } ∧ t.grant p = s.grant p

theorem State.reAim_reAimed (hx : (s.port p).session = some x) (hshed : x.shed = false) :
    ReAimed p s (s.reAim p) x := by
  have hany : (s.port p).session.any (·.shed) = false := by
    rw [hx]
    exact hshed
  have hport := State.port_compute s p false
  rw [hx] at hport
  unfold State.reAim
  rw [hany, if_neg Bool.false_ne_true]
  dsimp only
  rw [State.takeStep_unblocked (s.headBlocked_compute p false)]
  cases hpass : (s.compute p false).reAimPasses p with
  | true =>
    rw [if_pos rfl]
    have hw := (Walked.refl p (s.compute p false)).walk
    have htrips := hw.trips
    rw [hport] at htrips
    have hstep := State.compute_walk_stepped hx false
    refine ⟨hstep.memory, htrips, hstep.frame, hw.pending, ?_, fun h => absurd (hpass.symm.trans h) (by decide)⟩
    obtain ⟨y, hy, hc, htook⟩ := hstep.session
    refine ⟨y, hy, hc, fun _ hpres => ?_⟩
    rw [State.reAimPasses_compute hx hpres] at hpass
    obtain ⟨-, hmode, -, -, hb, -, -, -, hdue, -⟩ := Session.core_data hc
    have hsteps : ((s.compute p false).walk p).computedSteps false (s.port p).modeNow y
        = s.computedSteps false (s.port p).modeNow x :=
      (State.computedSteps_congr hstep.memory hc false (s.port p).modeNow).trans rfl
    have hmode' : y.mode = (s.port p).modeNow := hmode
    have hdue' : y.recomputeDue = false := hdue
    have haims : ((s.compute p false).walk p).aims y (s.port p) (s.computedSteps false (s.port p).modeNow x) = true :=
      (State.aims_congr hstep.memory hb rfl _).trans hpass
    unfold Session.reAimed
    rw [hsteps, haims, if_pos rfl, hmode', hdue', htook]
    simp
  | false =>
    rw [if_neg Bool.false_ne_true]
    have hafter : ((s.compute p false).modSession p fun y => { y with remaining := [] }).port p
        = { s.port p with session := some { x.computedNow (s.port p) with remaining := [] } } := by
      rw [State.port_modSession_same, hport]
      rfl
    refine ⟨rfl, by rw [hafter], by rw [hafter]; rfl, fun _ _ => id, ⟨_, congrArg Port.session hafter, rfl, fun hp hpres => ?_⟩,
      fun _ => ⟨hafter, rfl⟩⟩
    rw [State.reAimPasses_compute hx hpres] at hpass
    unfold Session.reAimed
    have hcond : (((s.compute p false).modSession p fun y => { y with remaining := [] }).aims
        { x.computedNow (s.port p) with remaining := [] } (s.port p)
        (((s.compute p false).modSession p fun y => { y with remaining := [] }).computedSteps false (s.port p).modeNow
          { x.computedNow (s.port p) with remaining := [] })) = false := hpass
    rw [hcond, if_neg Bool.false_ne_true]
    simp [Session.computedNow, hp]

theorem State.reAimPasses_unbound (hx : (s.port p).session = some x) (hb : x.boundSlot = none) :
    (s.compute p false).reAimPasses p = false := by
  have hport := State.port_compute s p false
  rw [hx] at hport
  unfold State.reAimPasses
  rw [hport]
  simp [State.boundEntry, hb]

/-! ### STEADY at a step's outcome -/

theorem State.steadyOutcome_plain (hx : (s.port p).session = some x) (hd : x.recomputeDue = false) :
    s.steadyOutcome p = s.enterSteady p := by
  unfold State.steadyOutcome State.recomputeDue
  rw [hx]
  simp [hd]

theorem State.steadyOutcome_due (hx : (s.port p).session = some x) (hd : x.recomputeDue = true) :
    s.steadyOutcome p = (s.enterSteady p).reAim p := by
  unfold State.steadyOutcome State.recomputeDue
  rw [hx]
  simp [hd]

/-- The session that has come to STEADY. -/
def Session.steadyNow (x : Session) : Session := { x.endWalk with phase := some .steady }

theorem State.port_enterSteady (s : State) (p : PortId) : (s.enterSteady p).port p = (s.port p).steadied :=
  State.port_modPort_same s p Port.steadied

theorem Port.session_steadied (hx : q.session = some x) : q.steadied.session = some x.steadyNow := session_map _ hx

/-- A session with the shed flag set rests in STEADY whatever its mark. -/
theorem State.steadyOutcome_shed (hx : (s.port p).session = some x) (hshed : x.shed = true) :
    s.steadyOutcome p = s.enterSteady p := by
  have hid : (s.enterSteady p).reAim p = s.enterSteady p := by
    unfold State.reAim
    rw [State.port_enterSteady, Port.session_steadied hx]
    exact if_pos hshed
  unfold State.steadyOutcome
  dsimp only
  rw [hid, ite_self]

theorem raisedIn_enterSteady (s : State) (p : PortId) : RaisedIn s (s.enterSteady p) (portGroup p) .steady :=
  (raisedIn_raisePort (s.modPort p Port.steadied) p .steady).congr rfl rfl

/-- What STEADY with the mark set comes to (R48, R68): the re-aim test, on the port and grant as they were. -/
structure Rested (p : PortId) (s t : State) (x : Session) : Prop where
  memory : t.memory = s.memory
  trips : (t.port p).tripCount = 0
  frame : { (t.port p).unwalked with session := none } = { (s.port p).unwalked with session := none }
  pending : Pending s t
  raised : (t.group (portGroup p)).pending &&& Kind.steady.mask ≠ 0
  session : ∃ y, (t.port p).session = some y ∧ y.core = (x.steadyNow.computedNow (s.port p)).core
    ∧ ((s.port p).presented = x.presented → y.reAimed t (s.port p) (s.grant p) = true)
  rests : ((s.enterSteady p).compute p false).reAimPasses p = false →
    t.port p = { (s.port p).steadied with session := some { x.steadyNow.computedNow (s.port p) with remaining := [] } }
      ∧ t.grant p = s.grant p

theorem State.steadyOutcome_rested (hx : (s.port p).session = some x) (hd : x.recomputeDue = true)
    (hshed : x.shed = false) : Rested p s (s.steadyOutcome p) x := by
  rw [State.steadyOutcome_due hx hd]
  have hport := s.port_enterSteady p
  have h := State.reAim_reAimed (s := s.enterSteady p) (p := p) (x := x.steadyNow)
    (by rw [hport]; exact Port.session_steadied hx) hshed
  obtain ⟨hmem, htrips, hframe, hpend, ⟨y, hy, hc, haim⟩, hrests⟩ := h
  rw [hport] at htrips hframe hc haim hrests
  refine ⟨hmem, Nat.le_zero.mp htrips, hframe.trans rfl, fun g m hm => hpend g m ?_, hpend _ _ (pending_raised (raisedIn_enterSteady s p)),
    ⟨y, hy, hc, fun hpres => ?_⟩, hrests⟩
  · exact Pending.raise (t := s.modPort p Port.steadied) (fun _ _ => id) (portGroup p) .steady g m hm
  · have h1 := haim rfl hpres
    rwa [show (s.enterSteady p).grant p = s.grant p from rfl,
      Session.reAimed_congr (q' := (s.port p).steadied) (q := s.port p) rfl rfl rfl] at h1

end Sys2Proof.Machine
end

section
/-! The end of an evaluation window. -/

namespace Sys2Proof.Machine

variable {s t u : State} {p : PortId} {q : Port} {x y : Session} {st : TrialStep}

/-! ### The verdict -/

theorem verdictFor_eq (c : Sig) (mean : Nat) (seen : Bool) :
    verdictFor c mean seen = if c = .A ∧ seen = false then .rejected
      else if mean < 100 then .rejected
      else if c.takeUp.any (fun level => decide (level < mean)) then .accepted
      else .inconclusive := by
  unfold verdictFor
  cases seen <;> cases hl : c.takeUp <;> simp

theorem Verdict.counts_eq (v : Verdict) : v.counts = decide (v ≠ .inconclusive) := by cases v <;> rfl

theorem exec_evaluationWindowExpiry (ht : (s.port p).timers.evaluation.isSome = true) (hx : (s.port p).session = some x)
    (hp : x.phase = some .evaluating) (hc : x.current = some st) :
    exec (.evaluationWindowExpiry p) s
      = .next ((s.modTimers p fun x => { x with evaluation := none }).judge p x st.sig) := by
  obtain ⟨left, hleft⟩ := Option.isSome_iff_exists.mp ht
  refine congrArg Host.Outcome.next ?_
  rw [show (s.timers p).evaluation = some left from hleft]
  have hx' : ((s.modTimers p fun x => { x with evaluation := none }).port p).session = some x := by
    rw [State.port_modTimers_same]
    exact hx
  have hj : x.judged = some st.sig := by rw [Session.judged, hc]
  change State.windowEnd p (s.modTimers p fun x => { x with evaluation := none }) = _
  unfold State.windowEnd
  rw [hx']
  simp only [hp, hj]

/-- A session with its window's mean and verdict recorded (R56, R59). -/
def Session.judgedAs (x : Session) (mean : Nat) (e : VerdictEntry) : Session :=
  { x with lastMean := some mean, verdicts := x.verdicts.filter (fun w => w.sig ≠ e.sig) ++ [e] }

/-- The state in which a window's verdict is recorded and VERDICT raised. -/
def State.judgedAs (s : State) (p : PortId) (mean : Nat) (c : Sig) (v : Verdict) : State :=
  ((s.modSession p fun y => { y with lastMean := some mean }).recordVerdict p c v).raisePort p .verdict

theorem State.judge_eq (s : State) (p : PortId) (x : Session) (c : Sig) :
    s.judge p x c = (s.judgedAs p (windowMean x.sum x.count) c
      (verdictFor c (windowMean x.sum x.count) x.probeSeen)).followVerdict p
        (verdictFor c (windowMean x.sum x.count) x.probeSeen) := rfl

theorem State.session_lastMean (hx : (s.port p).session = some x) (mean : Nat) :
    ((s.modSession p fun y => { y with lastMean := some mean }).port p).session = some { x with lastMean := some mean } := by
  rw [State.port_modSession_same]
  exact session_map _ hx

theorem State.port_judgedAs (hx : (s.port p).session = some x) (mean : Nat) (c : Sig) (v : Verdict) :
    (s.judgedAs p mean c v).port p = { s.port p with
      session := some (x.judgedAs mean ⟨c, v, v ≠ .inconclusive && x.boundSlot.isSome⟩) } := by
  unfold State.judgedAs
  rw [State.port_raisePort, State.session_recordVerdict (State.session_lastMean hx mean), State.port_modSession_same]
  simp only [Verdict.counts_eq]
  rfl

/-- What the record of a verdict leaves of the arbiter and raises. -/
theorem State.judgedAs_frame (s : State) (p : PortId) (mean : Nat) (c : Sig) (v : Verdict) :
    (s.judgedAs p mean c v).budget = s.budget ∧ RaisedIn s (s.judgedAs p mean c v) (portGroup p) .verdict := by
  obtain ⟨hb, hn⟩ := (s.modSession p fun y => { y with lastMean := some mean }).recordVerdict_frame p c v
  exact ⟨hb, (raisedIn_raisePort _ p .verdict).congr
    (congrArg (fun n : Notices => n.groups[(portGroup p).val]) hn).symm rfl⟩

theorem State.memory_judgedAs (hx : (s.port p).session = some x) (mean : Nat) (c : Sig) (v : Verdict) :
    (s.judgedAs p mean c v).memory
      = if v.counts && s.learns x then x.boundSlot.elim s.memory fun n => s.memory.fold n c (v = .accepted)
        else s.memory :=
  State.memory_recordVerdict (State.session_lastMean hx mean) c v

/-- The entry a verdict folds into. -/
theorem State.entry_judgedAs (hx : (s.port p).session = some x) {n : SlotId} (hn : x.boundSlot = some n) {e : Entry}
    (he : s.entry n = some e) (hp : e.pinned = none) (mean : Nat) (c : Sig) {v : Verdict} (hv : v ≠ .inconclusive) :
    (s.judgedAs p mean c v).entry n
      = some { e with tallies := e.tallies.modify (Tally.fold (v = .accepted)) c } :=
  State.entry_recordVerdict (State.session_lastMean hx mean) hn he hp c (by rw [Verdict.counts_eq]; exact decide_eq_true hv)

/-! ### What follows a verdict -/

theorem Session.took_congr {q' : Port} (hp : q'.presented = q.presented) (hr : q'.rePresent = q.rePresent) (y : Session)
    (g : Nat) (steps : List TrialStep) : y.took q' g steps = y.took q g steps := by
  have hs : ∀ c, q'.shows c = q.shows c := fun c => by
    unfold Port.shows
    rw [hp, hr]
  unfold Session.took
  simp only [hs]

/-- The parts of a session that nothing after its verdict touches. -/
def Session.sameRecord (x y : Session) : Prop :=
  y.number = x.number ∧ y.lastMean = x.lastMean ∧ y.verdicts = x.verdicts

theorem Session.sameRecord_of_core {z : Session} (h : y.core = z.core) (hz : x.sameRecord z) : x.sameRecord y := by
  obtain ⟨hn, -, -, -, -, hv, hm, -⟩ := Session.core_data h
  obtain ⟨h1, h2, h3⟩ := hz
  exact ⟨hn.trans h1, hm.trans h2, hv.trans h3⟩

/-- What follows a verdict: the memory and the record stay, pending kinds stay pending. -/
structure Followed (p : PortId) (s t : State) (x : Session) : Prop where
  memory : t.memory = s.memory
  pending : Pending s t
  session : ∃ y, (t.port p).session = some y ∧ x.sameRecord y

theorem State.walk_followed (hx : (s.port p).session = some x) (hb : (s.port p).headBlocked = false) :
    Followed p s (s.walk p) x := by
  obtain ⟨y, hy, hc, -⟩ := (State.walk_stepped hx hb).session
  have hw := (Walked.refl p s).walk
  exact ⟨hw.memory, hw.pending, y, hy, Session.sameRecord_of_core hc ⟨rfl, rfl, rfl⟩⟩

theorem State.recompute_followed (hx : (s.port p).session = some x) : Followed p s (s.recompute p) x := by
  have hw := (Walked.refl p (s.compute p false)).walk
  obtain ⟨y, hy, hc, -⟩ := (State.recompute_stepped hx).session
  rw [State.recompute_eq] at hy ⊢
  exact ⟨hw.memory, hw.pending, y, hy, Session.sameRecord_of_core hc ⟨rfl, rfl, rfl⟩⟩

theorem State.nextStep_followed (hx : (s.port p).session = some x) : Followed p s (s.nextStep p) x := by
  unfold State.nextStep
  split
  · exact State.recompute_followed hx
  · cases hb : (s.port p).headBlocked with
    | true =>
      rw [State.takeStep_blocked hb]
      exact State.recompute_followed hx
    | false =>
      rw [State.takeStep_unblocked hb]
      exact State.walk_followed hx hb

theorem State.enterSteady_followed (hx : (s.port p).session = some x) : Followed p s (s.enterSteady p) x :=
  ⟨rfl, fun g m hm => Pending.raise (t := s.modPort p Port.steadied) (fun _ _ => id) (portGroup p) .steady g m hm,
    x.steadyNow, by rw [State.port_enterSteady]; exact Port.session_steadied hx, rfl, rfl, rfl⟩

theorem State.steadyOutcome_followed (hx : (s.port p).session = some x) : Followed p s (s.steadyOutcome p) x := by
  have h0 := State.enterSteady_followed hx
  cases hd : x.recomputeDue with
  | false => rwa [State.steadyOutcome_plain hx hd]
  | true =>
    cases hshed : x.shed with
    | true =>
      rwa [State.steadyOutcome_shed hx hshed]
    | false =>
      have h := State.steadyOutcome_rested hx hd hshed
      obtain ⟨y, hy, hc, -⟩ := h.session
      exact ⟨h.memory, h.pending, y, hy, Session.sameRecord_of_core hc ⟨rfl, rfl, rfl⟩⟩

theorem State.followVerdict_followed (hx : (s.port p).session = some x) (v : Verdict) :
    Followed p s (s.followVerdict p v) x := by
  cases v with
  | accepted => exact State.steadyOutcome_followed hx
  | inconclusive => exact State.steadyOutcome_followed hx
  | rejected => exact State.nextStep_followed hx

theorem State.followVerdict_rests {v : Verdict} (hv : v ≠ .rejected) : s.followVerdict p v = s.steadyOutcome p := by
  cases v with
  | accepted => rfl
  | inconclusive => rfl
  | rejected => exact absurd rfl hv

/-- A port with the sequence of its session emptied. -/
def Port.emptied (q : Port) : Port :=
  { q with session := q.session.map fun y => { y with remaining := [], current := none } }

/-- An exhausted sequence at a port that does not present P asks for it (R50). -/
theorem State.exhaust_start (hsw : (s.port p).switchOn = true) (hre : (s.port p).rePresent = none)
    (hp : (s.port p).presented ≠ some .P) : (s.exhaust p).port p = Port.heading .P (s.port p).emptied := by
  have hport : (s.modSession p fun y => { y with remaining := [], current := none }).port p = (s.port p).emptied :=
    State.port_modSession_same s p fun y => { y with remaining := [], current := none }
  unfold State.exhaust
  dsimp only
  rw [if_neg fun h => hp (by rw [hport] at h; exact (Port.atOnce_P.mp h).2), State.representFor, State.port_modPort_same,
    hport, Port.request_start (q := (s.port p).emptied) hsw hre]
  rfl

/-- What a computation and the walk after it leave of the session (R47, R49). -/
theorem Stepped.computed {m : Mode} (hm : (s.port p).modeNow = m)
    (h : Stepped p s t (x.computedNow (s.port p)) (s.computedSteps false m x)) :
    ∃ y, (t.port p).session = some y ∧ y.mode = m ∧ y.recomputeDue = false
      ∧ y.took (s.port p) (s.grant p) (t.computedSteps false m y) = true := by
  obtain ⟨y, hy, hc, ht⟩ := h.session
  obtain ⟨-, hmode, -, -, -, -, -, -, hdue, -⟩ := Session.core_data hc
  have hsteps : t.computedSteps false m y = s.computedSteps false m x :=
    (State.computedSteps_congr h.memory hc false m).trans rfl
  exact ⟨y, hy, hmode.trans hm, hdue, by rw [hsteps]; exact ht⟩

/-- Where a walk goes from a letter at rest that is not the next signature (R49, R50). -/
theorem State.walk_leaves (hx : (s.port p).session = some x) (hb : (s.port p).headBlocked = false)
    (hre : (s.port p).rePresent = none) (hsw : (s.port p).switchOn = true) :
    (x.remaining = [] → (s.port p).presented ≠ some .P →
      ((s.walk p).port p).rePresent = some ⟨.P, 50, false, .sequencer, (s.port p).presented⟩
        ∧ (((s.walk p).port p).session.any fun y => y.phase == some .representing && y.target == some .P) = true) ∧
    (∀ nx, x.remaining.head? = some nx → (s.port p).presented ≠ some nx.sig →
      (((s.walk p).port p).session.any fun y => y.current == some nx
        && (y.phase == some .representing || y.phase == some .waitingBudget)) = true
      ∧ (nx.sig.offered ≤ s.grant p →
          ((s.walk p).port p).rePresent = some ⟨nx.sig, 50, false, .sequencer, (s.port p).presented⟩
            ∧ (s.walk p).grant p = s.grant p)) := by
  refine ⟨fun hr hp => ?exhausted, fun nx hnx hp => ?steps⟩
  case exhausted =>
    have hw : s.walk p = s.exhaust p := by
      rw [State.walk, hx]
      simp only [hr]
    rw [hw, State.exhaust_start hsw hre hp]
    refine ⟨rfl, ?_⟩
    simp [Port.heading, Port.goNeutral, Port.emptied, hx]
  case steps =>
    obtain ⟨rest, hr⟩ := List.head?_eq_some_iff.mp hnx
    have hturn := Port.hubTurns_of_head hb hx hr
    rw [← State.takeStep_unblocked hb, State.takeStep_head hb hx hr]
    by_cases h : nx.sig.offered ≤ s.grant p ∨ s.upgradeFits p nx.sig = true
    · obtain ⟨hg, hafter, -⟩ := State.takeHead_fits hsw hre hturn hp rest h
      rw [hafter]
      refine ⟨?_, fun hle => ⟨rfl, hg.trans (Nat.max_eq_left hle)⟩⟩
      obtain ⟨y, hy, hu⟩ := Port.session_of_unlit (Port.unlit_goNeutral ((s.port p).onStep nx rest))
        (session_map _ hx)
      have hcur := congrArg Session.current hu
      have hcur' : y.current = some nx := hcur
      simp [Port.heading, hy, hcur']
    · obtain ⟨hle, hf⟩ := not_or.mp h
      obtain ⟨-, -, hafter, -⟩ := State.takeHead_waits hx rest (Nat.not_le.mp hle) (Bool.eq_false_iff.mpr hf)
      rw [hafter]
      exact ⟨by simp, fun h' => absurd h' hle⟩

/-- Settles O48: a window's end records its verdict and folds it, then rests on an accepted or inconclusive signature and
steps on from a rejected one. -/
theorem windowExpiryGivesTheVerdict : Obligations.WindowExpiryGivesTheVerdict := by
  unfold Obligations.WindowExpiryGivesTheVerdict
  intro s p ht x hx hp st hc mean verdict entry
  have he := exec_evaluationWindowExpiry ht hx hp hc
  have hl := local_of_exec (p := p) (r := 0) (by simp [portEvents]) he
  have hmean : windowMean x.sum x.count = mean := rfl
  have hverdict : verdictFor st.sig mean x.probeSeen = verdict := verdictFor_eq st.sig mean x.probeSeen
  rw [State.judge_eq, hmean, hverdict] at he hl
  have hport := State.port_modTimers_same s p fun x => { x with evaluation := none }
  have hx' : ((s.modTimers p fun x => { x with evaluation := none }).port p).session = some x := by rw [hport]; exact hx
  have hjport := State.port_judgedAs hx' mean st.sig verdict
  rw [hport] at hjport
  obtain ⟨hjb, hjr⟩ := (s.modTimers p fun x => { x with evaluation := none }).judgedAs_frame p mean st.sig verdict
  have hjm := State.memory_judgedAs hx' mean st.sig verdict
  have hje := fun n hn e he hp => State.entry_judgedAs (v := verdict) hx' (n := n) hn (e := e) he hp mean st.sig
  generalize (s.modTimers p fun x => { x with evaluation := none }).judgedAs p mean st.sig verdict = w at *
  have hw := congrArg Port.session hjport
  have hgrant : w.grant p = s.grant p := congrArg (fun b : Budget => b.grants[p.val]) hjb
  have hblock : (w.port p).headBlocked = (s.port p).headBlocked := by
    rw [hjport]
    unfold Port.headBlocked
    rw [hx]
    rfl
  have htook : ∀ (y : Session) g steps, y.took (w.port p) g steps = y.took (s.port p) g steps := fun y g steps =>
    Session.took_congr (by rw [hjport]) (by rw [hjport]) y g steps
  have hpins : (w.port p).modeNow = (s.port p).modeNow := by rw [hjport]; rfl
  have hf := State.followVerdict_followed hw verdict
  obtain ⟨y, hy, hnum, hlm, hver⟩ := hf.session
  refine ⟨_, he, hl.1, hl.2.1, ?record, hf.pending _ _ (pending_raised hjr), fun n hn e hen hpin hv => ?folds,
    fun h => ?memory, fun hv hd => ?rests, fun n hn e hen hpin => ?pinned, fun hv hd hshed => ?due, fun hv hd => ?computes,
    fun hv hd hb => ?steps, fun hv hd hb => ?blocked⟩
  case record =>
    have hlm' : y.lastMean = some mean := hlm
    have hnum' : y.number = x.number := hnum
    have hver' : y.verdicts = x.verdicts.filter (fun w => w.sig ≠ st.sig) ++ [entry] := hver
    rw [hy]
    simp [hlm', hnum', hver']
  case folds =>
    have h := (congrArg (fun m : ProfileMemory => m.entry n) hf.memory).trans (hje n hn e hen hpin hv)
    rw [show (w.followVerdict p verdict).entry n = (w.followVerdict p verdict).memory.entry n from rfl, h]
    simp
  case memory =>
    rw [hf.memory, hjm]
    rcases h with h | h
    · rw [h]
      exact ite_self _
    · rw [h]
      rfl
  case pinned =>
    rw [hf.memory, hjm]
    refine if_neg fun h => ?_
    have hlearn : (s.modTimers p fun x => { x with evaluation := none }).learns x = e.pinned.isNone := by
      unfold State.learns State.boundEntry
      rw [hn, Option.bind_some, show (s.modTimers p fun x => { x with evaluation := none }).entry n = some e from hen]
      rfl
    rw [hlearn, Bool.and_eq_true, Option.isNone_iff_eq_none] at h
    rw [h.2] at hpin
    cases hpin
  case rests =>
    rw [State.followVerdict_rests hv, State.steadyOutcome_plain hw hd]
    have hsteady := w.port_enterSteady p
    have hrest := Port.session_steadied hw
    have hepoch := (raisedIn_enterSteady w p).2
    rw [hjr.2, add_assoc] at hepoch
    rw [hsteady]
    refine ⟨?_, hgrant, rfl, ?_, pending_raised (raisedIn_enterSteady w p), hepoch⟩
    · exact (congrArg Port.presented hjport).trans rfl
    · rw [hrest]
      simp [Session.steadyNow, Session.endWalk]
  case due =>
    have hr := State.steadyOutcome_rested hw hd hshed
    obtain ⟨z, hz, hc, haim⟩ := hr.session
    obtain ⟨-, hmode, -, -, -, -, -, -, hdue, -⟩ := Session.core_data hc
    have hmode' : z.mode = (w.port p).modeNow := hmode
    have hdue' : z.recomputeDue = false := hdue
    have hpres : (w.port p).presented = (s.port p).presented := by rw [hjport]
    rw [State.followVerdict_rests hv]
    refine ⟨hr.trips, hr.raised, ?_, fun h => ?_, fun hb => ?_⟩
    · rw [hz]
      simp [hmode', hdue', hpins]
    · have h1 := haim (hpres.trans h)
      rw [hgrant, Session.reAimed_congr hpres (by rw [hjport]) (by rw [hjport])] at h1
      rw [hz]
      exact h1
    · obtain ⟨hafter, hg⟩ := hr.rests (State.reAimPasses_unbound (x := (x.judgedAs mean entry).steadyNow)
        (by rw [w.port_enterSteady]; exact Port.session_steadied hw) hb)
      rw [hafter, hg]
      refine ⟨hpres, hgrant, ?_⟩
      simp [Session.steadyNow, Session.endWalk, Session.computedNow, Session.steps]
  case computes =>
    rw [show w.followVerdict p verdict = w.nextStep p from by rw [hv]; rfl]
    obtain ⟨z, hz, hmode, hdue, ht⟩ := ((State.nextStep_stepped hw).2 (Or.inl hd)).computed rfl
    rw [hpins] at hmode ht
    rw [htook, hgrant] at ht
    rw [hz]
    simp [hmode, hdue, ht]
  case steps =>
    rw [← hblock] at hb
    have hnext : w.nextStep p = w.walk p := by
      unfold State.nextStep State.recomputeDue
      rw [hw, State.takeStep_unblocked hb]
      exact if_neg (by rw [Option.any_some]; exact Bool.eq_false_iff.mp hd)
    rw [show w.followVerdict p verdict = w.walk p from by rw [hv]; exact hnext]
    obtain ⟨z, hz, hc, ht⟩ := (State.walk_stepped hw hb).session
    obtain ⟨-, hmode, -⟩ := Session.core_data hc
    have hmode' : z.mode = x.mode := hmode
    have ht' : z.took (s.port p) (s.grant p) x.remaining = true := by
      rw [← htook, ← hgrant]
      exact ht
    refine ⟨by rw [hz]; simp [hmode', ht'], fun hre hsw => ?_⟩
    have hleave := State.walk_leaves hw hb (by rw [hjport]; exact hre) (by rw [hjport]; exact hsw)
    have hpres : (w.port p).presented = (s.port p).presented := by rw [hjport]
    rw [hpres, hgrant] at hleave
    exact hleave
  case blocked =>
    rw [← hblock] at hb
    rw [show w.followVerdict p verdict = w.nextStep p from by rw [hv]; rfl]
    have hstep := (State.nextStep_stepped hw).2 (Or.inr hb)
    have hdata := Port.modeNow_of_headBlocked hb
    rw [hdata] at hstep
    obtain ⟨z, hz, hmode, hdue, ht⟩ := hstep.computed hdata
    rw [htook, hgrant] at ht
    rw [hz]
    simp [hmode, hdue, ht]

end Sys2Proof.Machine
end

section
/-! Where a re-present's end leads. -/

namespace Sys2Proof.Machine

variable {s t u : State} {p : PortId} {q : Port} {x y : Session} {st : TrialStep} {r : RePresent}

/-! ### The other ports and the arbiter -/

theorem Untouched.asked (h : Untouched p s t) : Asked p s t := ⟨h.ports, h.groups, h.identity, Or.inl h.budget⟩

theorem Untouched.modSession (h : Untouched p s t) (f : Session → Session) : Untouched p s (t.modSession p f) :=
  h.modPort _

/-- What a walk asks for leaves the total, the change in progress and the victims. -/
theorem Asked.device (a : Asked p s t) : t.budget.total = s.budget.total
    ∧ t.budget.pendingTotal = s.budget.pendingTotal ∧ t.budget.victims = s.budget.victims ∧ t.group 8 = s.group 8 := by
  have hg := a.groups 8 (portGroup_ne_device p).symm
  rcases a.budget with hb | ⟨-, -, g, hb⟩ | ⟨c, hb⟩
  all_goals
    have ht := congrArg Budget.total hb
    have hp := congrArg Budget.pendingTotal hb
    have hv := congrArg Budget.victims hb
    exact ⟨ht, hp, hv, hg⟩

theorem Untouched.compute (h : Untouched p s t) (retry : Bool) : Untouched p s (t.compute p retry) := h.modPort _

theorem Asked.recompute (hex : ∀ c, (s.port p).shows c = true → c.offered = s.grant p) : Asked p s (s.recompute p) := by
  rw [State.recompute_eq]
  refine Asked.of_untouched ((Untouched.refl p s).compute false) (Asked.walk (s.headBlocked_compute p false) fun c hc => ?_)
  rw [State.port_compute] at hc
  exact hex c hc

theorem Asked.reAim (hex : ∀ c, (s.port p).shows c = true → c.offered = s.grant p) : Asked p s (s.reAim p) := by
  unfold State.reAim
  split
  · exact (Untouched.refl p s).asked
  · dsimp only
    split
    · exact Asked.recompute hex
    · exact (((Untouched.refl p s).modPort _).modSession _).asked

theorem Untouched.enterSteady (h : Untouched p s t) : Untouched p s (t.enterSteady p) :=
  (h.modPort _).raisePort (by decide)

theorem Untouched.enterSteadyHeld (h : Untouched p s t) : Untouched p s (t.enterSteadyHeld p) :=
  (h.modPort _).raisePort (by decide)

theorem Asked.steadyOutcome (hex : ∀ c, (s.port p).shows c = true → c.offered = s.grant p) :
    Asked p s (s.steadyOutcome p) := by
  unfold State.steadyOutcome
  dsimp only
  split
  · refine Asked.of_untouched (Untouched.refl p s).enterSteady (Asked.reAim fun c hc => ?_)
    rw [State.port_enterSteady] at hc
    exact hex c hc
  · exact (Untouched.refl p s).enterSteady.asked

theorem Asked.sessionContinues (hex : ∀ c, (s.port p).shows c = true → c.offered = s.grant p)
    (o : Option TrialStep) : Asked p s (s.sessionContinues p r o) := by
  unfold State.sessionContinues
  split
  · exact (Untouched.refl p s).enterSteady.asked
  · split
    · exact Asked.recompute hex
    · cases o with
      | none => exact Asked.steadyOutcome hex
      | some st =>
        cases hk : st.kind with
        | evaluate =>
          simp only [hk]
          exact ((Untouched.refl p s).modPort _).asked
        | present =>
          simp only [hk]
          exact Asked.steadyOutcome hex

/-- The port whose resumption window closes (R153, R154). -/
def Port.windowClosed (q : Port) : Port :=
  let q1 := if q.pins.lok then q else q.startLink
  { q1 with session := q1.session.map fun x => { x with resumePlan := none, resumptionWindow := false } }

theorem State.port_closeWindow (s : State) (p : PortId) : (s.closeWindow p).port p = (s.port p).windowClosed :=
  State.port_modPort_same s p Port.windowClosed

theorem Port.shows_windowClosed (q : Port) (c : Sig) : q.windowClosed.shows c = q.shows c := by
  unfold Port.windowClosed
  cases q.pins.lok <;> rfl

theorem Asked.resumeContinues (hex : ∀ c, (s.port p).shows c = true → c.offered = s.grant p) (x : Session) :
    Asked p s (s.resumeContinues p r x) := by
  have hu : Untouched p s (s.closeWindow p) := (Untouched.refl p s).modPort _
  have hex' : ∀ c, ((s.closeWindow p).port p).shows c = true → c.offered = (s.closeWindow p).grant p := fun c hc => by
    rw [State.port_closeWindow, Port.shows_windowClosed] at hc
    exact hex c hc
  unfold State.resumeContinues
  dsimp only
  split
  · exact hu.enterSteady.asked
  · split
    · exact Asked.of_untouched hu (Asked.recompute hex')
    · cases x.resumePlan with
      | none => exact Asked.of_untouched hu (Asked.recompute hex')
      | some plan =>
        cases plan with
        | settle => exact (hu.modPort _).asked
        | rest => exact Asked.of_untouched hu (Asked.steadyOutcome hex')
        | continueTrials => exact Asked.of_untouched hu (Asked.recompute hex')

theorem Untouched.continueHeld (x : Session) : Untouched p s (s.continueHeld p r x) := by
  have h := Untouched.refl p s
  unfold State.continueHeld
  split
  · exact h.enterSteadyHeld
  · split
    · exact h.modSession _
    · split
      · cases x.current with
        | none => exact h.enterSteadyHeld
        | some st =>
          cases hk : st.kind with
          | evaluate =>
            simp only [hk]
            exact h.modSession _
          | present =>
            simp only [hk]
            exact h.enterSteadyHeld
      · exact h

/-- The continuation of a re-present's end asks the arbiter for no more than its next step. -/
theorem Asked.continueAfter {before : Port}
    (hex : before.phase = some .representing → ∀ c, (s.port p).shows c = true → c.offered = s.grant p) :
    Asked p s (s.continueAfter p r before) := by
  have idle := (Untouched.refl p s).asked
  unfold State.continueAfter
  cases hx : before.session with
  | none => exact idle
  | some x =>
    cases before.state with
    | occupied =>
      unfold State.continueOccupied
      dsimp only
      split
      · rename_i hp
        have hex' := hex (by rw [Port.phase, hx]; exact hp)
        split
        · exact Asked.resumeContinues hex' x
        · exact Asked.sessionContinues hex' _
      · exact ((Untouched.refl p s).modSession _).asked
    | hold => exact (Untouched.continueHeld x).asked
    | disabled | powering | idle | fault | recovery | quarantined => exact idle

/-! ### The port that shows its target -/

/-- The state once a re-present's target is presented and reported (R12 steps 1 to 3). -/
def State.arrive (s : State) (p : PortId) (r : RePresent) : State :=
  (s.modPort p fun q => q.completeRePresent r).reportPresented p r.target

theorem exec_rePresentTimerExpiry (hr : (s.port p).rePresent = some r) :
    exec (.rePresentTimerExpiry p) s = .next ((s.arrive p r).continueAfter p r (s.port p)) := by
  change (match (s.port p).rePresent with
    | none => _
    | some r => _) = _
  rw [hr]
  rfl

/-- The session whose port has come to show a signature (R22). -/
def Session.shown (c : Sig) (x : Session) : Session := { x with presented := some c, target := none }

theorem Port.session_completeRePresent (hx : q.session = some x) (hs : x.suspended = false) (r : RePresent) :
    (q.completeRePresent r).session = some (x.shown r.target) := by
  have h : (q.completeRePresent r).session = some { x.follow (some r.target) with target := none } := by
    change (q.session.map _).map _ = _
    rw [hx]
    rfl
  rw [h, Session.follow, hs]
  rfl

/-- A port that does not wait for budget, once it shows its target. -/
structure Arrived (p : PortId) (s w : State) (r : RePresent) : Prop where
  port : w.port p = (s.port p).completeRePresent r
  grant : w.grant p = min (s.grant p) r.target.offered
  group : w.group (portGroup p) = s.group (portGroup p)
  memory : w.memory = s.memory

theorem State.fallGrant_same (s : State) (p : PortId) (mA : Nat) :
    (s.fallGrant p mA).ports = s.ports ∧ (s.fallGrant p mA).notices = s.notices
      ∧ (s.fallGrant p mA).memory = s.memory ∧ (s.fallGrant p mA).budget.queue = s.budget.queue := by
  unfold State.fallGrant
  split <;> exact ⟨rfl, rfl, rfl, rfl⟩

theorem State.arrive_arrived (hq : s.queued p = false) (r : RePresent) : Arrived p s (s.arrive p r) r := by
  have hport := State.port_modPort_same s p fun q => q.completeRePresent r
  unfold State.arrive State.reportPresented
  split
  · rename_i hlt
    obtain ⟨hports, hnotices, hmemory, hqueue⟩ :=
      (s.modPort p fun q => q.completeRePresent r).fallGrant_same p r.target.offered
    have hq' : ((s.modPort p fun q => q.completeRePresent r).fallGrant p r.target.offered).queued p = false := by
      unfold State.queued
      rw [hqueue]
      exact hq
    obtain ⟨h1, h2, h3, -, -, h6⟩ := released hq'
    refine ⟨?_, ?_, h3.trans ?_, h6.trans hmemory⟩
    · rw [h1, State.port, hports]
      exact hport
    · rw [h2, State.grant_fallGrant_same]
      exact (Nat.min_eq_right (Nat.le_of_lt hlt)).symm
    · unfold State.group
      rw [hnotices]
      rfl
  · rename_i hle
    exact ⟨hport, (Nat.min_eq_left (Nat.not_lt.mp hle)).symm, rfl, rfl⟩

/-- A release event answers every entry or leaves it (R128, R129, R138). -/
theorem State.afterRelease_answers (hn : (s.budget.queue.map (·.port)).Nodup)
    (hx : ∀ e, e ∈ s.budget.queue → (s.port e.port).session.isSome = true) (e : QueueEntry) (he : e ∈ s.budget.queue) :
    Answered s s.afterRelease e := by
  unfold State.afterRelease
  cases s.budget.pendingTotal with
  | none => exact State.serve_answers _ hn hx e he
  | some total =>
    dsimp only
    split
    · have h := State.serve_answers
        (s := { s with budget := { s.budget with total := total, pendingTotal := none } }.raiseDevice .budgetApplied)
        s.budget.queue.length hn hx e he
      have hg : ({ s with budget := { s.budget with total := total, pendingTotal := none } }.raiseDevice
          .budgetApplied).group (portGroup e.port) = s.group (portGroup e.port) :=
        State.group_raise_ne _ _ _ _ (portGroup_ne_device e.port)
      rcases h with ⟨hm, h1, h2, h3⟩ | ⟨hm, h1, h2, h3⟩
      · exact Or.inl ⟨hm, h1, h2, h3.trans hg⟩
      · exact Or.inr ⟨hm, h1, h2, h3.congr hg.symm rfl⟩
    · exact Or.inl ⟨he, rfl, rfl, rfl⟩

/-- A port that goes on waiting for budget once it shows its target. -/
theorem State.arrive_waits (hqueue : QueueLaw s) (hq : (s.arrive p r).queued p = true) :
    (s.arrive p r).port p = (s.port p).completeRePresent r ∧ (s.arrive p r).grant p = min (s.grant p) r.target.offered := by
  have hport := State.port_modPort_same s p fun q => q.completeRePresent r
  unfold State.arrive State.reportPresented at hq ⊢
  split at hq
  · rename_i hlt
    rw [if_pos hlt]
    obtain ⟨hports, -, -, hbq⟩ := (s.modPort p fun q => q.completeRePresent r).fallGrant_same p r.target.offered
    generalize hu : (s.modPort p fun q => q.completeRePresent r).fallGrant p r.target.offered = u at *
    have hgrant : u.grant p = r.target.offered := by rw [← hu, State.grant_fallGrant_same]
    have hu' : u.port p = (s.port p).completeRePresent r := by rw [State.port, hports]; exact hport
    have hbq' : u.budget.queue = s.budget.queue := hbq
    have hsome : ∀ e, e ∈ u.budget.queue → (u.port e.port).session.isSome = true := fun e he => by
      rw [hbq'] at he
      have hph := (hqueue.2 e.port).mp (State.queued_of_mem he)
      have hs : (s.port e.port).session.isSome = true := by
        cases hs : (s.port e.port).session with
        | none => simp [State.phase, hs] at hph
        | some y => rfl
      rw [show u.port e.port = (s.modPort p fun q => q.completeRePresent r).port e.port by rw [State.port, hports]; rfl]
      by_cases he : e.port = p
      · rw [he] at hs ⊢
        rw [hport]
        change ((Option.map _ (Option.map _ _)).isSome) = true
        rw [Option.isSome_map, Option.isSome_map]
        exact hs
      · rw [State.port_modPort_ne _ _ _ _ he]
        exact hs
    obtain ⟨e, he, rfl⟩ := State.mem_of_queued hq
    have hin := u.queue_afterRelease.subset he
    rcases State.afterRelease_answers (by rw [hbq']; exact hqueue.1) hsome e hin with ⟨-, h1, h2, -⟩ | ⟨hno, -⟩
    · exact ⟨h2.trans hu', h1.trans (hgrant.trans (Nat.min_eq_right (Nat.le_of_lt hlt)).symm)⟩
    · exact absurd he hno
  · rename_i hle
    rw [if_neg hle]
    exact ⟨hport, (Nat.min_eq_left (Nat.not_lt.mp hle)).symm⟩

end Sys2Proof.Machine
end

section
/-! A session that shows the target of an ended re-present. -/

namespace Sys2Proof.Machine

variable {s t u v w : State} {p : PortId} {q : Port} {x y : Session} {st : TrialStep} {r : RePresent} {c : Sig}

/-! ### The session at its target -/

/-- The port unit as the continuation of a re-present's end finds it: at rest on the target. -/
def Port.atTarget (c : Sig) (q : Port) : Port := { q with presented := some c, rePresent := none }

/-- A session `x` of a port that has come to show a letter, whose record is now `y`. -/
structure Showing (p : PortId) (s v : State) (c : Sig) (x y : Session) : Prop where
  session : (v.port p).session = some y
  presented : (v.port p).presented = some c
  rePresent : (v.port p).rePresent = none
  pins : (v.port p).pins = (s.port p).pins
  grant : v.grant p = min (s.grant p) c.offered
  memory : v.memory = s.memory
  rest : y.presented = some c
  verdicts : y.verdicts = x.verdicts
  bound : y.boundSlot = x.boundSlot
  policy : y.policy = x.policy
  shed : y.shed = x.shed
  due : y.recomputeDue = x.recomputeDue

theorem Arrived.showing (h : Arrived p s w r) (hx : (s.port p).session = some x) (hs : x.suspended = false) :
    Showing p s w r.target x (x.shown r.target) :=
  ⟨by rw [h.port]; exact Port.session_completeRePresent hx hs r, by rw [h.port]; rfl, by rw [h.port]; rfl,
    by rw [h.port]; rfl, h.grant, h.memory, rfl, rfl, rfl, rfl, rfl, rfl⟩

/-- The record of a session whose resumption window closes (R153). -/
def Session.windowClosed (x : Session) : Session := { x with resumePlan := none, resumptionWindow := false }

theorem Port.windowClosed_data (q : Port) : q.windowClosed.session = q.session.map Session.windowClosed
    ∧ q.windowClosed.presented = q.presented ∧ q.windowClosed.rePresent = q.rePresent ∧ q.windowClosed.pins = q.pins
    ∧ q.windowClosed.state = q.state
    ∧ q.windowClosed.timers.link = (if q.pins.lok then q.timers.link else linkTime q.policy.linkTimeout) := by
  unfold Port.windowClosed
  cases q.pins.lok <;> exact ⟨rfl, rfl, rfl, rfl, rfl, rfl⟩

theorem Showing.closeWindow (h : Showing p s v c x y) : Showing p s (v.closeWindow p) c x y.windowClosed := by
  obtain ⟨hs, hp, hr, hpins, -⟩ := (v.port p).windowClosed_data
  refine ⟨?_, ?_, ?_, ?_, h.grant, h.memory, h.rest, h.verdicts, h.bound, h.policy, h.shed, h.due⟩
  · rw [v.port_closeWindow, hs, h.session]
    rfl
  · rw [v.port_closeWindow, hp, h.presented]
  · rw [v.port_closeWindow, hr, h.rePresent]
  · rw [v.port_closeWindow, hpins, h.pins]

theorem Showing.modeNow (h : Showing p s v c x y) : (v.port p).modeNow = (s.port p).modeNow := by
  unfold Port.modeNow
  rw [h.pins]

theorem Showing.steps (h : Showing p s v c x y) (m : Mode) : v.computedSteps false m y = s.computedSteps false m x := by
  unfold State.computedSteps State.boundEntry State.entry
  rw [h.memory, h.verdicts, h.bound, h.policy]

theorem Showing.shows (h : Showing p s v c x y) (hle : c.offered ≤ s.grant p) (d : Sig)
    (hd : (v.port p).shows d = true) : d.offered = v.grant p := by
  rw [Port.shows, h.presented, Bool.and_eq_true, beq_iff_eq, Option.some.injEq] at hd
  rw [← hd.2, h.grant, Nat.min_eq_right hle]

/-- The continuation that computes: a computation and its first step, from the target (R47, R64, R153). -/
theorem Showing.recomputes (h : Showing p s v c x y) :
    ((v.recompute p).port p).session.any (fun z => z.mode == (s.port p).modeNow && !z.recomputeDue
      && z.verdicts == x.verdicts
      && z.took ((s.port p).atTarget c) (min (s.grant p) c.offered) (s.computedSteps false (s.port p).modeNow x)) = true := by
  obtain ⟨z, hz, hc, ht⟩ := (State.recompute_stepped h.session).session
  obtain ⟨-, hmode, -, -, -, hver, -, -, hdue, -⟩ := Session.core_data hc
  have hmode' : z.mode = (s.port p).modeNow := hmode.trans h.modeNow
  have hdue' : z.recomputeDue = false := hdue
  have hver' : z.verdicts = x.verdicts := hver.trans h.verdicts
  rw [h.modeNow, h.steps, h.grant, Session.took_congr (q := (s.port p).atTarget c) h.presented h.rePresent] at ht
  rw [hz]
  simp [hmode', hdue', hver', ht]

/-- STEADY from the target with the mark set, the shed flag clear: the re-aim test (R48, R68). -/
theorem Showing.reAims (h : Showing p s v c x y) (hd : x.recomputeDue = true) (hshed : x.shed = false) :
    ((v.steadyOutcome p).port p).session.any (fun z => z.verdicts == x.verdicts
      && z.reAimed (v.steadyOutcome p) ((s.port p).atTarget c) (min (s.grant p) c.offered)) = true
    ∧ ((v.steadyOutcome p).aims x ((s.port p).atTarget c)
          ((v.steadyOutcome p).computedSteps false (s.port p).modeNow x) = false →
        ((v.steadyOutcome p).port p).presented = some c ∧ ((v.steadyOutcome p).port p).rePresent = none
          ∧ (v.steadyOutcome p).grant p = min (s.grant p) c.offered) := by
  have hr := State.steadyOutcome_rested h.session (h.due.trans hd) (h.shed.trans hshed)
  obtain ⟨z, hz, hc, haim⟩ := hr.session
  obtain ⟨-, -, -, -, -, hver, -⟩ := Session.core_data hc
  have hver' : z.verdicts = x.verdicts := hver.trans h.verdicts
  have haim' := haim (h.presented.trans h.rest.symm)
  rw [h.grant, Session.reAimed_congr (q := (s.port p).atTarget c) h.presented h.rePresent
    (congrArg Pins.hen h.pins)] at haim'
  refine ⟨by rw [hz]; simp [hver', haim'], fun hno => ?_⟩
  have hmem := hr.memory
  generalize v.steadyOutcome p = t at *
  have hsteps : v.computedSteps false (s.port p).modeNow y = t.computedSteps false (s.port p).modeNow x := by
    unfold State.computedSteps State.boundEntry State.entry
    rw [hmem, h.verdicts, h.bound, h.policy]
  have hport := v.port_enterSteady p
  have hpass : ((v.enterSteady p).compute p false).reAimPasses p = false := by
    rw [State.reAimPasses_compute (s := v.enterSteady p) (x := y.steadyNow)
      (by rw [hport]; exact Port.session_steadied h.session)
      (by rw [hport]; exact h.presented.trans h.rest.symm)]
    rw [hport, show (v.port p).steadied.modeNow = (s.port p).modeNow from h.modeNow]
    rw [show (v.enterSteady p).computedSteps false (s.port p).modeNow y.steadyNow
        = v.computedSteps false (s.port p).modeNow y from rfl, hsteps]
    refine (State.aims_congr (t := v.enterSteady p) (y := y.steadyNow) hmem.symm h.bound ?_ _).trans hno
    exact h.presented
  obtain ⟨hafter, hg⟩ := hr.rests hpass
  rw [hafter, hg]
  exact ⟨h.presented, h.rePresent, h.grant⟩

/-- What every continuation leaves of a port in a session: its state and link timer, the memory, the resumption's record. -/
structure Continued (p : PortId) (v t : State) (y : Session) : Prop where
  memory : t.memory = v.memory
  state : (t.port p).state = (v.port p).state
  link : (t.port p).timers.link = (v.port p).timers.link
  session : ∃ z, (t.port p).session = some z ∧ z.resumePlan = y.resumePlan ∧ z.resumptionWindow = y.resumptionWindow

theorem Session.resumption_of_core {z : Session} (h : z.core = y.core) :
    z.resumePlan = y.resumePlan ∧ z.resumptionWindow = y.resumptionWindow := by
  have h1 := congrArg Session.resumePlan h
  have h2 := congrArg Session.resumptionWindow h
  exact ⟨h1, h2⟩

theorem State.recompute_continued (hy : (v.port p).session = some y) : Continued p v (v.recompute p) y := by
  have h := State.recompute_stepped hy
  obtain ⟨z, hz, hc, -⟩ := h.session
  obtain ⟨-, -, -, hlink⟩ := h.timers
  obtain ⟨hplan, hwindow⟩ := Session.resumption_of_core hc
  exact ⟨h.memory, h.state, hlink, z, hz, hplan, hwindow⟩

theorem State.enterSteady_continued (hy : (v.port p).session = some y) : Continued p v (v.enterSteady p) y := by
  have hport := v.port_enterSteady p
  exact ⟨rfl, by rw [hport]; rfl, by rw [hport]; rfl, y.steadyNow,
    by rw [hport]; exact Port.session_steadied hy, rfl, rfl⟩

theorem State.resettle_continued (hy : (v.port p).session = some y) : Continued p v (v.resettle p) y := by
  have hport := State.port_modPort_same v p Port.resettled
  rw [← v.resettle_eq] at hport
  exact ⟨rfl, by rw [hport]; rfl, by rw [hport]; rfl, { y with phase := some .settling, held := none, target := none },
    by rw [hport]; exact session_map _ hy, rfl, rfl⟩

/-- STEADY at a step's outcome, whatever the mark and the shed flag. -/
theorem State.steadyOutcome_continued (hy : (v.port p).session = some y) :
    Continued p v (v.steadyOutcome p) y ∧ ((v.steadyOutcome p).port p).tripCount = 0
      ∧ ((v.steadyOutcome p).group (portGroup p)).pending &&& Kind.steady.mask ≠ 0 := by
  have steady : Continued p v (v.enterSteady p) y ∧ ((v.enterSteady p).port p).tripCount = 0
      ∧ ((v.enterSteady p).group (portGroup p)).pending &&& Kind.steady.mask ≠ 0 :=
    ⟨State.enterSteady_continued hy, by rw [v.port_enterSteady]; rfl, pending_raised (raisedIn_enterSteady v p)⟩
  cases hd : y.recomputeDue with
  | false => rwa [State.steadyOutcome_plain hy hd]
  | true =>
    cases hshed : y.shed with
    | true =>
      rwa [State.steadyOutcome_shed hy hshed]
    | false =>
      have h := State.steadyOutcome_rested hy hd hshed
      obtain ⟨z, hz, hc, -⟩ := h.session
      have hstate := congrArg Port.state h.frame
      have hlink := congrArg (fun q : Port => q.timers.link) h.frame
      obtain ⟨hplan, hwindow⟩ := Session.resumption_of_core hc
      exact ⟨⟨h.memory, hstate, hlink, z, hz, hplan, hwindow⟩, h.trips, h.raised⟩

/-- STEADY from the target with nothing to compute. -/
theorem Showing.enterSteady (h : Showing p s v c x y) :
    ((v.enterSteady p).port p).presented = some c ∧ ((v.enterSteady p).port p).rePresent = none
      ∧ ((v.enterSteady p).port p).tripCount = 0 ∧ ((v.enterSteady p).port p).session = some y.steadyNow
      ∧ (v.enterSteady p).grant p = min (s.grant p) c.offered := by
  rw [v.port_enterSteady]
  exact ⟨h.presented, h.rePresent, rfl, Port.session_steadied h.session, h.grant⟩

end Sys2Proof.Machine
end

section
/-! The end of a re-present. -/

namespace Sys2Proof.Machine

variable {s t u v w : State} {p : PortId} {q : Port} {x y : Session} {st : TrialStep} {r : RePresent} {c : Sig}

/-! ### Which continuation follows -/

theorem State.continueAfter_unattached (hx : q.session = none) : w.continueAfter p r q = w := by
  simp only [State.continueAfter, hx]

theorem State.continueAfter_step (hx : q.session = some x) (hs : q.state = .occupied)
    (hp : x.phase = some .representing) (hw : x.resumptionWindow = false) :
    w.continueAfter p r q = w.sessionContinues p r x.current := by
  simp [State.continueAfter, hx, hs, State.continueOccupied, hp, hw]

theorem State.continueAfter_resumption (hx : q.session = some x) (hs : q.state = .occupied)
    (hp : x.phase = some .representing) (hw : x.resumptionWindow = true) :
    w.continueAfter p r q = w.resumeContinues p r x := by
  simp [State.continueAfter, hx, hs, State.continueOccupied, hp, hw]

theorem State.continueAfter_inherited (hx : q.session = some x) (hs : q.state = .occupied)
    (hp : x.phase ≠ some .representing) : w.continueAfter p r q = w.awaitTarget p := by
  simp [State.continueAfter, hx, hs, State.continueOccupied, hp]

theorem State.continueAfter_held (hx : q.session = some x) (hs : q.state = .hold) :
    w.continueAfter p r q = w.continueHeld p r x := by
  simp [State.continueAfter, hx, hs]

theorem State.sessionContinues_evaluates {o : Option TrialStep} (ho : o = some st) (hk : st.kind = .evaluate)
    (hr : r.requester = .sequencer) (hh : r.hubRetarget = false) : w.sessionContinues p r o = w.startWindow p := by
  subst ho
  simp [State.sessionContinues, hk, hr, hh]

theorem State.sessionContinues_presents {o : Option TrialStep} (ho : (o.all fun st => st.kind == .present) = true)
    (hr : r.requester = .sequencer) (hh : r.hubRetarget = false) : w.sessionContinues p r o = w.steadyOutcome p := by
  cases o with
  | none => simp [State.sessionContinues, hr, hh]
  | some st =>
    have hk : st.kind = .present := by simpa using ho
    simp [State.sessionContinues, hr, hh, hk]

theorem State.sessionContinues_shed (hr : r.requester = .shed) (o : Option TrialStep) :
    w.sessionContinues p r o = w.enterSteady p := if_pos hr

theorem State.sessionContinues_hub (hr : r.requester ≠ .shed) (hh : r.hubRetarget = true ∨ r.requester = .hub)
    (o : Option TrialStep) : w.sessionContinues p r o = w.recompute p := by
  unfold State.sessionContinues
  rw [if_neg hr]
  exact if_pos (by simpa using hh)

theorem State.awaitTarget_idle (hx : (w.port p).session = some y) (hp : y.phase ≠ some .waitingBudget) :
    (w.awaitTarget p).port p = w.port p := by
  unfold State.awaitTarget
  rw [State.port_modSession_same, hx, Option.map_some, if_neg hp, ← hx]

theorem State.awaitTarget_waits (hx : (w.port p).session = some y) (hp : y.phase = some .waitingBudget) :
    (w.awaitTarget p).port p = { w.port p with session := some { y with target := y.current.map (·.sig) } } := by
  unfold State.awaitTarget
  rw [State.port_modSession_same, hx, Option.map_some, if_pos hp]

/-! ### A window at the target -/

theorem Port.detector_completeRePresent (q : Port) (r : RePresent) : (q.completeRePresent r).detector ≠ .replying := by
  change (if r.target = .A then (if q.pins.probeBand then Detector.timing else .watching) else .off) ≠ .replying
  split
  · split <;> decide
  · decide

/-- A window opened at the target of a re-present starts with the probe unseen (R54). -/
theorem Arrived.startWindow (h : Arrived p s w r) (hx : (s.port p).session = some x) (hs : x.suspended = false) :
    ((w.startWindow p).port p).presented = some r.target ∧ ((w.startWindow p).port p).rePresent = none
      ∧ ((w.startWindow p).port p).timers.evaluation = some (200 * (s.port p).policy.evaluationWindow)
      ∧ ((w.startWindow p).port p).session = some { x with
          phase := some .evaluating, presented := some r.target, target := none, sum := 0, count := 0
          probeSeen := false } := by
  unfold State.startWindow
  rw [State.port_modPort_same, h.port, Port.session_completeRePresent hx hs r]
  have hdet := (s.port p).detector_completeRePresent r
  exact ⟨rfl, rfl, rfl, by simp [hdet, Session.shown]⟩

/-! ### HOLD -/

theorem raisedIn_enterSteadyHeld (s : State) (p : PortId) : RaisedIn s (s.enterSteadyHeld p) (portGroup p) .steady :=
  (raisedIn_raisePort (s.modPort p fun q =>
    { q with tripCount := 0, session := q.session.map fun x => { x.endWalk with held := some .steady } }) p .steady).congr
    rfl rfl

theorem State.port_enterSteadyHeld (hx : (w.port p).session = some y) :
    (w.enterSteadyHeld p).port p = { w.port p with
      tripCount := 0, session := some { y.endWalk with held := some .steady } } := by
  have h := State.port_modPort_same w p fun q =>
    { q with tripCount := 0, session := q.session.map fun x => { x.endWalk with held := some .steady } }
  rw [hx] at h
  exact h

theorem State.port_holdRepresenting (hx : (w.port p).session = some y) :
    (w.holdRepresenting p).port p = { w.port p with session := some { y with held := some .representing } } := by
  unfold State.holdRepresenting
  rw [State.port_modSession_same, hx]
  rfl

theorem State.continueHeld_steady (h : r.requester = .shed ∨ (r.hubRetarget = false ∧ x.held = some .representing
      ∧ r.requester = .sequencer ∧ (x.current.all fun st => st.kind == .present) = true)) :
    w.continueHeld p r x = w.enterSteadyHeld p := by
  unfold State.continueHeld
  by_cases hs : r.requester = .shed
  · exact if_pos hs
  · obtain ⟨hh, hp, hr, ho⟩ := h.resolve_left hs
    rw [if_neg hs, hh, if_neg Bool.false_ne_true, if_pos (by simp [hp, hr])]
    cases hc : x.current with
    | none => rfl
    | some st =>
      rw [hc] at ho
      have hk : st.kind = .present := by simpa using ho
      simp only [hk]

theorem State.continueHeld_represents (hs : r.requester ≠ .shed)
    (h : r.hubRetarget = true ∨ (x.held = some .representing ∧ r.requester = .sequencer
      ∧ (x.current.any fun st => st.kind == .evaluate) = true)) :
    w.continueHeld p r x = w.holdRepresenting p := by
  unfold State.continueHeld
  rw [if_neg hs]
  cases hh : r.hubRetarget with
  | true => exact if_pos rfl
  | false =>
    obtain ⟨hp, hr, ho⟩ := h.resolve_left (by simp [hh])
    rw [if_neg Bool.false_ne_true, if_pos (by simp [hp, hr])]
    cases hc : x.current with
    | none => simp [hc] at ho
    | some st =>
      rw [hc] at ho
      have hk : st.kind = .evaluate := by simpa using ho
      simp only [hk]

theorem State.continueHeld_idle (hs : r.requester ≠ .shed) (hh : r.hubRetarget = false)
    (hp : x.held ≠ some .representing) : w.continueHeld p r x = w := by
  unfold State.continueHeld
  rw [if_neg hs, hh, if_neg Bool.false_ne_true]
  exact if_neg (by simp [hp])

/-- What a continuation in HOLD leaves of the port (R32). -/
theorem State.continueHeld_keeps (hx : (w.port p).session = some y) (z : Session) :
    (w.continueHeld p r z).memory = w.memory ∧ (w.continueHeld p r z).budget = w.budget
      ∧ ((w.continueHeld p r z).port p).presented = (w.port p).presented
      ∧ ((w.continueHeld p r z).port p).rePresent = (w.port p).rePresent
      ∧ ((w.continueHeld p r z).port p).state = (w.port p).state
      ∧ ((w.continueHeld p r z).port p).timers.hold = (w.port p).timers.hold := by
  have steady : ∀ t, t = w.enterSteadyHeld p → t.memory = w.memory ∧ t.budget = w.budget
      ∧ (t.port p).presented = (w.port p).presented ∧ (t.port p).rePresent = (w.port p).rePresent
      ∧ (t.port p).state = (w.port p).state ∧ (t.port p).timers.hold = (w.port p).timers.hold := by
    rintro _ rfl
    rw [State.port_enterSteadyHeld hx]
    exact ⟨rfl, rfl, rfl, rfl, rfl, rfl⟩
  have represents : ∀ t, t = w.holdRepresenting p → t.memory = w.memory ∧ t.budget = w.budget
      ∧ (t.port p).presented = (w.port p).presented ∧ (t.port p).rePresent = (w.port p).rePresent
      ∧ (t.port p).state = (w.port p).state ∧ (t.port p).timers.hold = (w.port p).timers.hold := by
    rintro _ rfl
    rw [State.port_holdRepresenting hx]
    exact ⟨rfl, rfl, rfl, rfl, rfl, rfl⟩
  by_cases hs : r.requester = .shed
  · exact steady _ (State.continueHeld_steady (Or.inl hs))
  cases hh : r.hubRetarget with
  | true => exact represents _ (State.continueHeld_represents hs (Or.inl hh))
  | false =>
    by_cases hp : z.held = some .representing ∧ r.requester = .sequencer
    · by_cases hk : (z.current.all fun st => st.kind == .present) = true
      · exact steady _ (State.continueHeld_steady (Or.inr ⟨hh, hp.1, hp.2, hk⟩))
      · refine represents _ (State.continueHeld_represents hs (Or.inr ⟨hp.1, hp.2, ?_⟩))
        cases hc : z.current with
        | none => simp [hc] at hk
        | some st =>
          rw [hc] at hk
          cases hkind : st.kind with
          | evaluate => simp [hkind]
          | present => simp [hkind] at hk
    · have hid : w.continueHeld p r z = w := by
        unfold State.continueHeld
        rw [if_neg hs, hh, if_neg Bool.false_ne_true]
        exact if_neg (by simpa using hp)
      rw [hid]
      exact ⟨rfl, rfl, rfl, rfl, rfl, rfl⟩

/-! ### A resumption -/

theorem State.resumeContinues_shed (h : r.requester = .shed ∨ x.shed = true) :
    w.resumeContinues p r x = (w.closeWindow p).enterSteady p := by
  unfold State.resumeContinues
  exact if_pos (by simpa using h)

theorem State.resumeContinues_computes (hr : r.requester ≠ .shed) (hs : x.shed = false)
    (h : r.hubRetarget = true ∨ r.requester = .hub ∨ x.resumePlan = some .continueTrials) :
    w.resumeContinues p r x = (w.closeWindow p).recompute p := by
  unfold State.resumeContinues
  dsimp only
  rw [if_neg (by simp [hr, hs])]
  split
  · rfl
  · rename_i hno
    obtain ⟨h1, h2⟩ : r.hubRetarget = false ∧ r.requester ≠ .hub := by simpa using hno
    rw [(h.resolve_left (by simp [h1])).resolve_left h2]

theorem State.resumeContinues_plan (hr : r.requester ≠ .shed) (hs : x.shed = false) (hh : r.hubRetarget = false)
    (hr' : r.requester ≠ .hub) :
    (x.resumePlan = some .settle → w.resumeContinues p r x = (w.closeWindow p).resettle p)
      ∧ (x.resumePlan = some .rest → w.resumeContinues p r x = (w.closeWindow p).steadyOutcome p) := by
  unfold State.resumeContinues
  dsimp only
  rw [if_neg (by simp [hr, hs]), if_neg (by simp [hh, hr'])]
  exact ⟨fun hp => by rw [hp], fun hp => by rw [hp]⟩

/-- Every way a kept session goes on after its resumption re-present (R153, R154). -/
theorem State.resumeContinues_continued (hy : (w.port p).session = some y) (x : Session) :
    Continued p (w.closeWindow p) (w.resumeContinues p r x) y.windowClosed := by
  have hx : ((w.closeWindow p).port p).session = some y.windowClosed := by
    rw [w.port_closeWindow, (w.port p).windowClosed_data.1, hy]
    rfl
  unfold State.resumeContinues
  dsimp only
  split
  · exact State.enterSteady_continued hx
  · split
    · exact State.recompute_continued hx
    · cases x.resumePlan with
      | none => exact State.recompute_continued hx
      | some plan =>
        cases plan with
        | settle => exact State.resettle_continued hx
        | rest => exact (State.steadyOutcome_continued hx).1
        | continueTrials => exact State.recompute_continued hx

end Sys2Proof.Machine
end

section
/-! The end of a re-present, as one statement. -/

namespace Sys2Proof.Machine

variable {s t u v w : State} {p : PortId} {q : Port} {x y : Session} {st : TrialStep} {r : RePresent} {c : Sig}

theorem QueueLaw.not_queued (h : QueueLaw s) (hx : (s.port p).session = some x) (hp : x.phase ≠ some .waitingBudget) :
    s.queued p = false :=
  Bool.eq_false_iff.mpr fun hq => hp (by
    have h1 := (h.2 p).mp hq
    rw [State.phase, hx] at h1
    exact h1)

theorem QueueLaw.not_queued_of_none (h : QueueLaw s) (hx : (s.port p).session = none) : s.queued p = false :=
  Bool.eq_false_iff.mpr fun hq => by
    have h1 := (h.2 p).mp hq
    rw [State.phase, hx] at h1
    cases h1

theorem Session.not_suspended_of_phase {f : Phase} (h : x.phase = some f) : x.suspended = false := by
  simp [Session.suspended, h]

theorem Session.not_suspended_of_held {f : Phase} (h : x.held = some f) : x.suspended = false := by
  simp [Session.suspended, h]

/-- The last victim's fall to P completes the change; another's leaves it pending (R137, R138). -/
theorem State.arrive_victim {total : Nat} (hpend : s.budget.pendingTotal = some total) (hP : r.target = .P)
    (hg : 500 < s.grant p) :
    (s.arrive p r).victim p = false ∧ (∀ q, q ≠ p → (s.arrive p r).victim q = s.victim q)
      ∧ ((∀ q, q ≠ p → s.victim q = false) → (s.arrive p r).budget.total = total
          ∧ (s.arrive p r).budget.pendingTotal = none ∧ RaisedIn s (s.arrive p r) 8 .budgetApplied)
      ∧ ((∃ q, q ≠ p ∧ s.victim q = true) → (s.arrive p r).grant p = 500
          ∧ (s.arrive p r).budget.total = s.budget.total ∧ (s.arrive p r).budget.pendingTotal = some total
          ∧ (s.arrive p r).group 8 = s.group 8 ∧ ∀ q, q ≠ p → (s.arrive p r).grant q = s.grant q) := by
  have hfall : s.arrive p r
      = (((s.modPort p fun q => q.completeRePresent r).setGrant p 500).leaveVictims p).afterRelease := by
    unfold State.arrive State.reportPresented
    rw [hP]
    exact if_pos hg
  rw [hfall]
  have hvictim := fun q => ((s.modPort p fun q => q.completeRePresent r).setGrant p 500).victim_leaveVictims p q
  have hpend' : (((s.modPort p fun q => q.completeRePresent r).setGrant p 500).leaveVictims p).budget.pendingTotal
      = some total := hpend
  refine ⟨?_, fun q hq => ?_, fun hno => ?_, fun ⟨q, hq, hqv⟩ => ?_⟩
  · rw [State.victim_afterRelease, hvictim, if_pos rfl]
  · rw [State.victim_afterRelease, hvictim, if_neg hq]
    rfl
  · refine State.afterRelease_completes hpend' fun q => ?_
    rw [hvictim]
    split
    · rfl
    · rename_i hq
      exact hno q hq
  · have hwaits : (((s.modPort p fun q => q.completeRePresent r).setGrant p 500).leaveVictims p).noVictims = false := by
      refine Bool.eq_false_iff.mpr fun h => ?_
      have h1 := (State.noVictims_iff _).mp h q
      rw [hvictim, if_neg hq] at h1
      exact absurd (hqv.symm.trans h1) (by decide)
    rw [State.afterRelease, hpend']
    dsimp only
    rw [hwaits, if_neg Bool.false_ne_true]
    exact ⟨State.grant_setGrant_same _ _ _, rfl, hpend', rfl, fun q hq => State.grant_setGrant_ne _ _ _ _ hq⟩

/-- Settles O43: a re-present's end presents its target, lets the grant fall, and the session goes on by requester, phase
and state. -/
theorem rePresentEndPresentsItsTarget : Obligations.RePresentEndPresentsItsTarget := by
  unfold Obligations.RePresentEndPresentsItsTarget
  intro s p hqueue r hr
  have he := exec_rePresentTimerExpiry hr
  have hl := local_of_exec (p := p) (r := 0) (by simp [portEvents]) he
  refine ⟨fun hx => ?unattached, fun x hx hs hp hwin => ⟨fun st hc hk hreq hh => ?evaluates, fun hreq => ?shed,
    fun hreq hh hall => ?presents, fun hreq hh => ?hub⟩, fun x hx hs => ⟨fun hp => ?inherits, fun hp => ?waits⟩,
    fun x hx hs hp h hheld => ?held, fun x hx hs hp hwin => ?resumes, fun total hpend hv hP hg => ?victim⟩
  case unattached =>
    have ha := State.arrive_arrived (hqueue.not_queued_of_none hx) r
    have hc := State.continueAfter_unattached (w := s.arrive p r) (p := p) (r := r) hx
    refine ⟨_, he, hl.1, hl.2.1, ?_⟩
    rw [hc, ha.port, ha.grant]
    exact ⟨rfl, rfl, rfl, rfl, rfl, ha.group⟩
  case evaluates =>
    have ha := State.arrive_arrived (hqueue.not_queued hx (by rw [hp]; decide)) r
    have hc := (State.continueAfter_step (w := s.arrive p r) (p := p) (r := r) hx hs hp hwin).trans
      (State.sessionContinues_evaluates hc hk hreq hh)
    refine ⟨_, he, hl.1, hl.2.1, ?_⟩
    rw [hc]
    obtain ⟨h1, h2, h3, h4⟩ := ha.startWindow hx (Session.not_suspended_of_phase hp)
    exact ⟨h1, h2, h3, h4, ha.grant, ha.group⟩
  case shed =>
    have ha := State.arrive_arrived (hqueue.not_queued hx (by rw [hp]; decide)) r
    have hc := (State.continueAfter_step (w := s.arrive p r) (p := p) (r := r) hx hs hp hwin).trans
      (State.sessionContinues_shed hreq _)
    refine ⟨_, he, hl.1, hl.2.1, ?_⟩
    rw [hc]
    obtain ⟨h1, h2, h3, h4, h5⟩ := (ha.showing hx (Session.not_suspended_of_phase hp)).enterSteady
    exact ⟨h1, h2, h3, h4, h5, (raisedIn_enterSteady _ p).congr ha.group.symm rfl⟩
  case presents =>
    have ha := State.arrive_arrived (hqueue.not_queued hx (by rw [hp]; decide)) r
    have hsh := ha.showing hx (Session.not_suspended_of_phase hp)
    have hc := (State.continueAfter_step (w := s.arrive p r) (p := p) (r := r) hx hs hp hwin).trans
      (State.sessionContinues_presents hall hreq hh)
    obtain ⟨hcont, htrips, hpend⟩ := State.steadyOutcome_continued hsh.session
    refine ⟨_, he, hl.1, hl.2.1, ?_⟩
    rw [hc]
    refine ⟨hcont.memory.trans ha.memory, htrips, hpend, fun hd hshed => hsh.reAims hd hshed, fun hd => ?_⟩
    rw [State.steadyOutcome_plain hsh.session hd]
    obtain ⟨h1, h2, -, h4, h5⟩ := hsh.enterSteady
    exact ⟨h1, h2, h5, h4, (raisedIn_enterSteady _ p).congr ha.group.symm rfl⟩
  case hub =>
    have ha := State.arrive_arrived (hqueue.not_queued hx (by rw [hp]; decide)) r
    have hsh := ha.showing hx (Session.not_suspended_of_phase hp)
    have hc := (State.continueAfter_step (w := s.arrive p r) (p := p) (r := r) hx hs hp hwin).trans
      (State.sessionContinues_hub hreq hh _)
    have hcont := State.recompute_continued hsh.session
    refine ⟨_, he, hl.1, hl.2.1, ?_⟩
    rw [hc]
    refine ⟨hcont.memory.trans ha.memory, hcont.state.trans ?_, hsh.recomputes⟩
    rw [ha.port]
    exact hs
  case inherits =>
    have hphase : x.phase ≠ some .waitingBudget ∧ x.phase ≠ some .representing ∧ x.suspended = false := by
      rcases hp with h | h <;> simp [h, Session.suspended]
    obtain ⟨hw, hre, hsus⟩ := hphase
    have ha := State.arrive_arrived (hqueue.not_queued hx hw) r
    have hsh := ha.showing hx hsus
    have hc := State.continueAfter_inherited (w := s.arrive p r) (p := p) (r := r) hx hs hre
    have hport := (State.awaitTarget_idle hsh.session hw).trans ha.port
    refine ⟨_, he, hl.1, hl.2.1, ?_⟩
    rw [hc, hport]
    exact ⟨ha.memory, rfl, rfl, ha.grant, ha.group, rfl, rfl, Port.session_completeRePresent hx hsus r⟩
  case waits =>
    have hc := State.continueAfter_inherited (w := s.arrive p r) (p := p) (r := r) hx hs (by rw [hp]; decide)
    refine ⟨_, he, hl.1, hl.2.1, ?_⟩
    rw [hc]
    refine ⟨State.memory_reportPresented _ p r.target, fun hle => ?_, fun hq => ?_⟩
    · have hexact : s.arrive p r = s.modPort p fun q => q.completeRePresent r := State.reportPresented_exact hle
      rw [hexact]
      exact ⟨rfl, rfl⟩
    · obtain ⟨hport, hg⟩ := State.arrive_waits hqueue hq
      have hsess := Port.session_completeRePresent hx (Session.not_suspended_of_phase hp) r
      have hafter := State.awaitTarget_waits (w := s.arrive p r) (y := x.shown r.target) (by rw [hport]; exact hsess) hp
      rw [hafter, hport]
      exact ⟨rfl, rfl, hg, rfl⟩
  case held =>
    have hsus := Session.not_suspended_of_held hheld
    have ha := State.arrive_arrived (hqueue.not_queued hx (by rw [hp]; decide)) r
    have hsh := ha.showing hx hsus
    have hc := State.continueAfter_held (w := s.arrive p r) (p := p) (r := r) hx hs
    obtain ⟨hm, hb, h1, h2, h3, h4⟩ := State.continueHeld_keeps (r := r) hsh.session x
    have hgrant : ((s.arrive p r).continueHeld p r x).grant p = min (s.grant p) r.target.offered :=
      (congrArg (fun b : Budget => b.grants[p.val]) hb).trans ha.grant
    refine ⟨_, he, hl.1, hl.2.1, ?_⟩
    rw [hc]
    refine ⟨hm.trans ha.memory, h1.trans hsh.presented, h2.trans hsh.rePresent, hgrant, h3.trans ?_, h4.trans ?_,
      fun h => ?_, fun h => ?_, fun hreq hh hph => ?_⟩
    · rw [ha.port]
      exact hs
    · rw [ha.port]
      rfl
    · rw [State.continueHeld_steady (by rwa [hheld, Option.some.injEq]), State.port_enterSteadyHeld hsh.session]
      exact ⟨rfl, rfl, (raisedIn_enterSteadyHeld _ p).congr ha.group.symm rfl⟩
    · rw [State.continueHeld_represents h.1 (by rw [hheld, Option.some.injEq]; exact h.2),
        State.port_holdRepresenting hsh.session]
      exact ⟨rfl, ha.group⟩
    · rw [State.continueHeld_idle hreq hh (by rcases hph with h | h | h <;> simp [hheld, h])]
      exact ⟨hsh.session, ha.group⟩
  case resumes =>
    have hsus := Session.not_suspended_of_phase hp
    have ha := State.arrive_arrived (hqueue.not_queued hx (by rw [hp]; decide)) r
    have hsh := ha.showing hx hsus
    have hc := State.continueAfter_resumption (w := s.arrive p r) (p := p) (r := r) hx hs hp hwin
    have hclosed := hsh.closeWindow
    obtain ⟨hmem, hstate, hlink, z, hz, hplan, hwindow⟩ := State.resumeContinues_continued (r := r) hsh.session x
    obtain ⟨-, -, -, -, hst, hlk⟩ := ((s.arrive p r).port p).windowClosed_data
    rw [(s.arrive p r).port_closeWindow, hst] at hstate
    rw [(s.arrive p r).port_closeWindow, hlk, linkTime_eq] at hlink
    rw [ha.port] at hstate hlink
    have hplan' : z.resumePlan = none := hplan
    have hwindow' : z.resumptionWindow = false := hwindow
    have hgroup : ((s.arrive p r).closeWindow p).group (portGroup p) = s.group (portGroup p) := ha.group
    refine ⟨_, he, hl.1, hl.2.1, ?_⟩
    rw [hc]
    refine ⟨hmem.trans ha.memory, hstate.trans hs, hlink, by rw [hz]; simp [hplan', hwindow'], fun hshed => ?shed,
      fun hreq hshed => ⟨fun h => ?computes, fun hh hreq' hplan => ?settles, fun hh hreq' hplan => ?rests⟩⟩
    case shed =>
      rw [State.resumeContinues_shed hshed]
      obtain ⟨h1, h2, h3, h4, h5⟩ := hclosed.enterSteady
      exact ⟨h4, h1, h2, h3, h5, (raisedIn_enterSteady _ p).congr hgroup.symm rfl⟩
    case computes =>
      rw [State.resumeContinues_computes hreq hshed h]
      exact hclosed.recomputes
    case settles =>
      rw [(State.resumeContinues_plan hreq hshed hh hreq').1 hplan]
      have hport := State.port_modPort_same ((s.arrive p r).closeWindow p) p Port.resettled
      rw [← State.resettle_eq] at hport
      rw [hport]
      exact ⟨session_map _ hclosed.session, hclosed.presented, hclosed.rePresent, rfl, hclosed.grant, hgroup⟩
    case rests =>
      obtain ⟨-, htrips, hpend⟩ := State.steadyOutcome_continued hclosed.session
      rw [(State.resumeContinues_plan hreq hshed hh hreq').2 hplan]
      refine ⟨htrips, hpend, fun hd => hclosed.reAims hd hshed, fun hd => ?_⟩
      rw [State.steadyOutcome_plain hclosed.session hd]
      obtain ⟨h1, h2, -, h4, h5⟩ := hclosed.enterSteady
      exact ⟨h1, h2, h5, (raisedIn_enterSteady _ p).congr hgroup.symm rfl, h4⟩
  case victim =>
    obtain ⟨h1, h2, h3, h4⟩ := State.arrive_victim hpend hP hg
    have hasked : Asked p (s.arrive p r) ((s.arrive p r).continueAfter p r (s.port p)) := by
      refine Asked.continueAfter fun hp c hc => ?_
      have hq : s.queued p = false := Bool.eq_false_iff.mpr fun hq => by
        have h := (hqueue.2 p).mp hq
        rw [show s.phase p = (s.port p).phase from rfl, hp] at h
        cases h
      have ha := State.arrive_arrived hq r
      rw [ha.port] at hc
      obtain rfl : r.target = c := by
        rw [Port.shows, Bool.and_eq_true, beq_iff_eq] at hc
        exact Option.some.inj hc.2
      rw [ha.grant, hP]
      exact (Nat.min_eq_right (Nat.le_of_lt hg)).symm
    obtain ⟨htotal, hpending, hvictims, hgroup⟩ := hasked.device
    have hvictim : ∀ q, ((s.arrive p r).continueAfter p r (s.port p)).victim q = (s.arrive p r).victim q := fun q =>
      congrArg (fun v : Vector Bool 8 => v[q.val]) hvictims
    refine ⟨_, he, (hvictim p).trans h1, fun q hq => (hvictim q).trans (h2 q hq), fun hno => ?_, fun hsome => ?_⟩
    · obtain ⟨g1, g2, g3⟩ := h3 hno
      exact ⟨htotal.trans g1, hpending.trans g2, g3.congr rfl hgroup⟩
    · obtain ⟨g1, g2, g3, g4, g5⟩ := h4 hsome
      obtain ⟨hgrants, -⟩ := hasked.grants (Or.inl (by rw [g3]; simp))
      have hgrant : ∀ q, ((s.arrive p r).continueAfter p r (s.port p)).grant q = (s.arrive p r).grant q := fun q =>
        congrArg (fun g : Vector Nat 8 => g[q.val]) hgrants
      exact ⟨(hgrant p).trans g1, htotal.trans g2, hpending.trans g3, hgroup.trans g4,
        fun q hq => (hgrant q).trans (g5 q hq)⟩

end Sys2Proof.Machine
end

section
/-! Set Budget with a total that the grants fit. -/

namespace Sys2Proof.Machine

variable {s t u : State} {p : PortId} {e : QueueEntry}

theorem twoBytes_toNat (v : Half) : twoBytes v.toNat = [hiByte v, loByte v] := by
  have hhi : byteOf (v.toNat / 256) = hiByte v := by
    refine BitVec.eq_of_toNat_eq ?_
    have hv := v.isLt
    simp [byteOf, hiByte, Nat.shiftRight_eq_div_pow]
  have hlo : byteOf v.toNat = loByte v := by
    refine BitVec.eq_of_toNat_eq ?_
    simp [byteOf, loByte]
  rw [twoBytes, hhi, hlo]

theorem totalValid_iff (n : Nat) : totalValid n = true ↔ 4000 ≤ n ∧ n ≤ 20000 ∧ n % 100 = 0 := by
  simp [totalValid, and_assoc]

theorem exec_setBudget (tag : Byte) (hr : s.host.inReset = false) (v : Half) :
    exec (.setBudget tag v) s = .next (s.setBudget tag v) := congrArg _ (State.taking_running s _ hr)

/-- With no change pending a release event is a service of the queue (R128). -/
theorem State.afterRelease_serves (h : s.budget.pendingTotal = none) : s.afterRelease = s.serveQueue := by
  rw [State.afterRelease, h]

/-- What neither a service nor a release event touches. -/
structure Settled (s t : State) : Prop where
  victims : t.budget.victims = s.budget.victims
  waitLimit : t.budget.waitLimit = s.budget.waitLimit
  memory : t.memory = s.memory
  pending : t.pending = s.pending

theorem State.afterRelease_settled (s : State) : Settled s s.afterRelease :=
  State.afterRelease_keeps (P := Settled s)
    (fun _ _ _ h _ _ => ⟨h.victims, h.waitLimit, h.memory, h.pending⟩)
    (fun _ _ h _ _ => ⟨h.victims, h.waitLimit, h.memory, h.pending⟩) s ⟨rfl, rfl, rfl, rfl⟩

/-- The state in which a fitting total is in effect and reported, its queue not yet served (R133). -/
def State.totalApplied (s : State) (total : Nat) : State :=
  { s with budget := { s.budget with total := total } }.raiseDevice .budgetApplied

theorem State.applyTotal_eq (hp : s.budget.pendingTotal = none) (total : Nat) :
    s.applyTotal total = (s.totalApplied total).afterRelease :=
  (State.afterRelease_serves (s := s.totalApplied total) hp).symm

theorem State.sumGrants_totalApplied (s : State) (total : Nat) : (s.totalApplied total).sumGrants = s.sumGrants := rfl

/-- A service whose head fits grants it. -/
theorem State.serveQueue_answersHead (hp : s.budget.pendingTotal = none) {rest : List QueueEntry}
    (hq : s.budget.queue = e :: rest) (hn : (s.budget.queue.map (·.port)).Nodup)
    (h : e.sig.offered - s.grant e.port ≤ s.budget.total - s.sumGrants) :
    s.serveQueue.grant e.port = e.sig.offered ∧ s.serveQueue.queued e.port = false
      ∧ s.serveQueue.group (portGroup e.port) = { pending := (s.group (portGroup e.port)).pending ||| Kind.grant.mask,
                                                  epoch := (s.group (portGroup e.port)).epoch + 1 } := by
  have hno : (s.grantHead e rest).queued e.port = false := by
    rw [hq, List.map_cons, List.nodup_cons] at hn
    refine Bool.eq_false_iff.mpr fun hqueued => ?_
    obtain ⟨f, hf, hport⟩ := State.mem_of_queued hqueued
    exact hn.1 (hport ▸ List.mem_map_of_mem hf)
  have hgroup : (s.grantHead e rest).group (portGroup e.port)
      = { pending := (s.group (portGroup e.port)).pending ||| Kind.grant.mask
          epoch := (s.group (portGroup e.port)).epoch + 1 } :=
    (State.group_raise ((s.setQueue rest).setGrant e.port e.sig.offered) _ _ .grant).trans (if_pos rfl)
  rw [State.serveQueue_grants (by rw [hq]; rfl) h, hq, List.tail_cons,
    ← State.afterRelease_serves (s := s.grantHead e rest) hp]
  obtain ⟨-, hg, hgr, hqd, -⟩ := released hno
  exact ⟨hg.trans ((State.grant_grantHead _ _ _ _).trans (if_pos rfl)), hqd, hgr.trans hgroup⟩

/-- Settles O30: a total that the grants fit is in effect at once, and the queue is served under it. -/
theorem setBudgetAppliesAFittingTotal : Obligations.SetBudgetAppliesAFittingTotal := by
  unfold Obligations.SetBudgetAppliesAFittingTotal
  intro s tag v hr
  have run := exec_setBudget tag hr v
  have hvalid := totalValid_iff v.toNat
  refine ⟨fun h => ?invalid, fun h => ⟨fun hp => ?busy, fun hp hsum => ?applied⟩⟩
  case invalid =>
    have hno : (!totalValid v.toNat) = true := by rw [Bool.not_eq_true', ← Bool.not_eq_true, hvalid]; exact h
    exact refused_of_exec (run.trans (congrArg _ (if_pos hno)))
  case busy =>
    refine refused_of_exec (run.trans (congrArg _ ?_))
    unfold State.setBudget
    rw [hvalid.mpr h, if_neg (by decide), if_pos hp]
  case applied =>
    have hset : s.setBudget tag v
        = ((s.totalApplied v.toNat).afterRelease).respondWith tag 0x03 (·.budgetData 0) := by
      unfold State.setBudget
      rw [hvalid.mpr h, if_neg (by decide), hp, if_neg (by decide), if_pos hsum, State.applyTotal_eq hp]
    have hpend : (s.totalApplied v.toNat).budget.pendingTotal = none := hp
    obtain ⟨hraised, hgroups⟩ := raised_device { s with budget := { s.budget with total := v.toNat } } .budgetApplied
    obtain ⟨htotal, hpending, hdevice⟩ :=
      State.serve_device (s.totalApplied v.toNat).budget.queue.length (s.totalApplied v.toNat)
    rw [← State.serveQueue, ← State.afterRelease_serves hpend] at htotal hpending hdevice
    obtain ⟨hvictims, hwait, hmemory, hcommands⟩ := (s.totalApplied v.toNat).afterRelease_settled
    have hdata : (s.totalApplied v.toNat).afterRelease.budgetData 0 = [0, 0, hiByte v, loByte v, 0, 0] := by
      have htwo := twoBytes_toNat v
      unfold State.budgetData
      rw [hpending, hpend, htotal, show (s.totalApplied v.toNat).budget.total = v.toNat from rfl, htwo]
      rfl
    refine ⟨_, run.trans (congrArg _ hset), htotal, hpending.trans hp, hraised.congr rfl hdevice,
      (replied_respond _ .ok tag 0x03 _).trans ?_, hvictims, hwait, hmemory, hcommands, fun q hq => ?others,
      fun e he => ⟨fun hlt => ?blocked, fun hn hle => ?granted⟩⟩
    · beta_reduce
      rw [hdata]
    case others =>
      have h := released (s := s.totalApplied v.toNat) (p := q) hq
      exact ⟨h.port, h.grant, h.group.trans (hgroups _ (portGroup_ne_device q))⟩
    case blocked =>
      have hid : (s.totalApplied v.toNat).afterRelease = s.totalApplied v.toNat :=
        (State.afterRelease_serves hpend).trans (State.serveQueue_blocked he hlt)
      have hstate : ∀ d : State → List Byte, (((s.totalApplied v.toNat).afterRelease).respondWith tag 0x03 d).budget
          = (s.totalApplied v.toNat).budget
          ∧ (((s.totalApplied v.toNat).afterRelease).respondWith tag 0x03 d).ports = s.ports := fun d => by
        rw [hid]
        exact ⟨rfl, rfl⟩
      obtain ⟨hb, hports⟩ := hstate (·.budgetData 0)
      rw [hb, hports]
      exact ⟨rfl, rfl, rfl⟩
    case granted =>
      obtain ⟨rest, hq⟩ := List.head?_eq_some_iff.mp he
      have h := State.serveQueue_answersHead (s := s.totalApplied v.toNat) hpend hq hn hle
      rw [← State.afterRelease_serves hpend,
        show (s.totalApplied v.toNat).group (portGroup e.port) = s.group (portGroup e.port) from
          hgroups _ (portGroup_ne_device e.port)] at h
      exact h

end Sys2Proof.Machine
end

section
/-! Computation calls, and the ports that a pin change is told to. -/

namespace Sys2Proof.Machine

variable {s t u : State} {p : PortId} {q : Port} {x y : Session} {st : TrialStep}

/-! ### One call -/

theorem callInPhase_mark {current : Bool} {who : Option Requester} {f : Option Phase} :
    callInPhase current who f = .mark ↔ f = some .evaluating ∨ f = some .waitingBudget
      ∨ (f = some .representing ∧ (current = true ∨ who = some .sequencer ∨ who = some .resumption)) := by
  cases f with
  | none => simp [callInPhase]
  | some f =>
    cases f with
    | representing =>
      simp only [callInPhase]
      split
      · rename_i h
        simpa [or_assoc] using h
      · rename_i h
        simpa [or_assoc] using h
    | _ => simp [callInPhase]

theorem callInHold_mark {current : Bool} {who : Option Requester} {f : Option Phase} :
    callInHold current who f = .mark ↔ f = some .evaluating ∨ f = some .waitingBudget
      ∨ (f = some .representing ∧ (current = true ∨ who = some .sequencer)) := by
  cases f with
  | none => simp [callInHold]
  | some f =>
    cases f with
    | representing =>
      simp only [callInHold]
      split
      · rename_i h
        simpa using h
      · rename_i h
        simpa using h
    | _ => simp [callInHold]

theorem callInPhase_aim {current : Bool} {who : Option Requester} {f : Option Phase} :
    callInPhase current who f = .aim ↔ f = some .steady := by
  cases f with
  | none => simp [callInPhase]
  | some f =>
    cases f with
    | representing =>
      simp only [callInPhase]
      split <;> simp
    | _ => simp [callInPhase]

theorem callInHold_ne_aim {current : Bool} {who : Option Requester} {f : Option Phase} :
    callInHold current who f ≠ .aim := by
  cases f with
  | none => simp [callInHold]
  | some f =>
    cases f with
    | representing =>
      simp only [callInHold]
      split <;> simp
    | _ => simp [callInHold]

/-- A call sets the mark where a step is in flight (R110 to R112, R152). -/
theorem Port.callEffect_mark (hx : q.session = some x) : q.callEffect = .mark ↔ q.marksDue x := by
  unfold Port.marksDue Port.callEffect
  rw [hx]
  cases hs : q.state with
  | occupied => simp [callInPhase_mark, ← Option.isSome_iff_ne_none]
  | hold => simp [callInHold_mark, ← Option.isSome_iff_ne_none]
  | _ => simp

/-- A call aims where the session rests in STEADY in OCCUPIED (R110). -/
theorem Port.callEffect_aim (hx : q.session = some x) :
    q.callEffect = .aim ↔ q.state = .occupied ∧ x.phase = some .steady := by
  unfold Port.callEffect
  rw [hx]
  cases hs : q.state with
  | occupied => simp [callInPhase_aim]
  | hold => simp [callInHold_ne_aim]
  | _ => simp

theorem State.computationCall_mark (hx : (s.port p).session = some x) (h : (s.port p).marksDue x) :
    (s.computationCall p).port p = { s.port p with session := some { x with recomputeDue := true } }
      ∧ (s.computationCall p).grant p = s.grant p := by
  unfold State.computationCall
  rw [(Port.callEffect_mark hx).mpr h]
  refine ⟨?_, rfl⟩
  unfold State.markDue
  rw [State.port_modSession_same, hx]
  rfl

theorem State.computationCall_aim (hx : (s.port p).session = some x) (hs : (s.port p).state = .occupied)
    (hp : x.phase = some .steady) : s.computationCall p = s.reAim p := by
  unfold State.computationCall
  rw [(Port.callEffect_aim hx).mpr ⟨hs, hp⟩]

theorem State.reAim_shed (hx : (s.port p).session = some x) (hshed : x.shed = true) : s.reAim p = s :=
  if_pos (by rw [hx]; exact hshed)

/-- A call at a session it neither marks nor aims does nothing (R110 to R112). -/
theorem State.computationCall_idle (hx : (s.port p).session = some x) (hm : ¬(s.port p).marksDue x)
    (ha : ¬((s.port p).state = .occupied ∧ x.phase = some .steady ∧ x.shed = false)) : s.computationCall p = s := by
  by_cases h : (s.port p).state = .occupied ∧ x.phase = some .steady
  · rw [State.computationCall_aim hx h.1 h.2]
    exact State.reAim_shed hx (by by_contra hf; exact ha ⟨h.1, h.2, by simpa using hf⟩)
  · unfold State.computationCall
    cases hc : (s.port p).callEffect with
    | nothing => rfl
    | mark => exact absurd ((Port.callEffect_mark hx).mp hc) hm
    | aim => exact absurd ((Port.callEffect_aim hx).mp hc) h

theorem Asked.computationCall (hex : ∀ c, (s.port p).shows c = true → c.offered = s.grant p) :
    Asked p s (s.computationCall p) := by
  unfold State.computationCall
  cases (s.port p).callEffect with
  | nothing => exact (Untouched.refl p s).asked
  | mark => exact ((Untouched.refl p s).modSession _).asked
  | aim => exact Asked.reAim hex

@[simp] theorem State.memory_reAim (s : State) (p : PortId) : (s.reAim p).memory = s.memory := by
  unfold State.reAim
  split
  · rfl
  · dsimp only
    split
    · rw [State.takeStep_unblocked (s.headBlocked_compute p false)]
      exact ((Walked.refl p (s.compute p false)).walk).memory
    · rfl

@[simp] theorem State.memory_computationCall (s : State) (p : PortId) : (s.computationCall p).memory = s.memory := by
  unfold State.computationCall
  cases (s.port p).callEffect with
  | nothing => rfl
  | mark => rfl
  | aim => exact s.memory_reAim p

/-! ### A call at several ports -/

/-- A set of ports has been told: each has made its call, from its own unit and grant; the others are as they were. -/
structure Told (s t : State) (l : List PortId) : Prop where
  memory : t.memory = s.memory
  others : ∀ r, r ∉ l → t.port r = s.port r ∧ t.grant r = s.grant r
  called : ∀ r, r ∈ l → ∃ u : State, u.port r = s.port r ∧ u.grant r = s.grant r ∧ u.memory = s.memory
    ∧ t.port r = (u.computationCall r).port r ∧ t.grant r = (u.computationCall r).grant r

theorem Told.one (hex : ∀ c, (s.port p).shows c = true → c.offered = s.grant p) : Told s (s.computationCall p) [p] := by
  have a := Asked.computationCall hex
  refine ⟨s.memory_computationCall p, fun r hr => ?_, fun r hr => ?_⟩
  · have hne : r ≠ p := fun h => hr (List.mem_singleton.mpr h)
    exact ⟨a.ports r hne, a.grant_ne hne⟩
  · obtain rfl := List.mem_singleton.mp hr
    exact ⟨s, rfl, rfl, rfl, rfl, rfl⟩

/-- One call and the calls of the other ports after it. -/
theorem Told.cons {l : List PortId} (hl : l.Nodup) (hp : p ∈ l)
    (hex : ∀ c, (s.port p).shows c = true → c.offered = s.grant p)
    (h : Told (s.spendChoice.computationCall p) t (l.erase p)) : Told s t l := by
  have a : Asked p s (s.spendChoice.computationCall p) :=
    Asked.of_untouched (u := s.spendChoice) ⟨fun _ _ => rfl, fun _ _ => rfl, rfl, rfl⟩ (Asked.computationCall hex)
  have hno : p ∉ l.erase p := fun hm => ((List.Nodup.mem_erase_iff hl).mp hm).1 rfl
  refine ⟨h.memory.trans (State.memory_computationCall _ _), fun r hr => ?_, fun r hr => ?_⟩
  · have hne : r ≠ p := fun e => hr (e ▸ hp)
    obtain ⟨h1, h2⟩ := h.others r fun hm => hr (List.mem_of_mem_erase hm)
    exact ⟨h1.trans (a.ports r hne), h2.trans (a.grant_ne hne)⟩
  · by_cases hrp : r = p
    · subst hrp
      obtain ⟨h1, h2⟩ := h.others r hno
      exact ⟨s.spendChoice, rfl, rfl, rfl, h1, h2⟩
    · obtain ⟨u, h1, h2, h3, h4, h5⟩ := h.called r ((List.Nodup.mem_erase_iff hl).mpr ⟨hrp, hr⟩)
      exact ⟨u, h1.trans (a.ports r hrp), h2.trans (a.grant_ne hrp), h3.trans (State.memory_computationCall _ _), h4, h5⟩

theorem State.tellPorts_told (n : Nat) (s : State) (l : List PortId) (hn : l.length ≤ n) (hl : l.Nodup)
    (hex : ∀ p, p ∈ l → ∀ c, (s.port p).shows c = true → c.offered = s.grant p) : Told s (State.tellPorts n s l) l := by
  induction n generalizing s l with
  | zero =>
    obtain rfl := List.length_eq_zero_iff.mp (Nat.le_zero.mp hn)
    exact ⟨rfl, fun _ _ => ⟨rfl, rfl⟩, fun _ h => by cases h⟩
  | succ n ih =>
    rcases l with _ | ⟨a, _ | ⟨b, l⟩⟩
    · exact ⟨rfl, fun _ _ => ⟨rfl, rfl⟩, fun _ h => by cases h⟩
    · exact Told.one (hex a List.mem_cons_self)
    · obtain ⟨p, hm, hp⟩ := s.freeChoice_mem (List.cons_ne_nil a (b :: l))
      simp only [State.tellPorts, hp]
      have hask : Asked p s (s.spendChoice.computationCall p) :=
        Asked.of_untouched (u := s.spendChoice) ⟨fun _ _ => rfl, fun _ _ => rfl, rfl, rfl⟩ (Asked.computationCall (hex p hm))
      refine Told.cons hl hm (hex p hm) (ih _ _ ?_ (hl.erase p) fun r hr c hc => ?_)
      · have := List.length_erase_of_mem hm
        omega
      · obtain ⟨hne, hmem⟩ := (List.Nodup.mem_erase_iff hl).mp hr
        rw [hask.ports r hne] at hc
        rw [hask.grant_ne hne]
        exact hex r hmem c hc

/-! ### The re-aim test under a pin -/

theorem State.towardStep_current (hx : (s.port p).session = some x) (hc : x.current = some st)
    (hb : (s.port p).hubTurns st.sig = false) (hsh : (s.port p).shows st.sig = false) :
    ∃ y, ((s.towardStep p st).port p).session = some y ∧ y.current = some st := by
  unfold State.towardStep
  rw [(s.port p).shows_iff_atOnce hb, hsh, if_neg Bool.false_ne_true]
  obtain ⟨y, hy, hu⟩ := Port.session_of_unlit ((s.port p).unlit_requestRePresent st.sig .sequencer) hx
  have hcur := congrArg Session.current hu
  have hcur' : y.current = some st := (show y.current = x.current from hcur).trans hc
  exact ⟨{ y with phase := some .representing, target := ((s.port p).requestRePresent st.sig .sequencer).rePresent.map (·.target) },
    by rw [State.representFor, State.port_modPort_same]; exact session_map _ hy, hcur'⟩

/-- The head of a walk that is not shown becomes the current step (R43, R49). -/
theorem State.walk_current (hx : (s.port p).session = some x) (hb : (s.port p).headBlocked = false) {rest : List TrialStep}
    (hr : x.remaining = st :: rest) (hsh : (s.port p).shows st.sig = false) :
    ∃ y, ((s.walk p).port p).session = some y ∧ y.current = some st := by
  have hturn := Port.hubTurns_of_head hb hx hr
  have hport := s.port_setCurrent p st rest
  have hses : ((s.port p).onStep st rest).session = some { x with current := some st, remaining := rest } :=
    session_map _ hx
  rw [← State.takeStep_unblocked hb, State.takeStep_head hb hx hr]
  unfold State.takeHead
  dsimp only
  split
  · exact State.towardStep_current (s := s.setCurrent p st rest) (by rw [hport]; exact hses) rfl (by rw [hport]; exact hturn)
      (by rw [hport]; exact hsh)
  · split
    · exact State.towardStep_current (s := (s.setCurrent p st rest).setGrant p st.sig.offered)
        (by rw [State.port_setGrant, hport]; exact hses) rfl (by rw [State.port_setGrant, hport]; exact hturn)
        (by rw [State.port_setGrant, hport]; exact hsh)
    · exact ⟨{ x with current := some st, remaining := rest, phase := some .waitingBudget, target := some st.sig },
        by rw [State.port_modSession_same, State.joinQueue, State.port_raisePort, State.port_setQueue, hport, hses]; rfl, rfl⟩

end Sys2Proof.Machine
end

section
/-! PM Pin and PM Unpin. -/

namespace Sys2Proof.Machine

variable {s t u : State} {p r : PortId} {q : Port} {x y : Session} {m : ProfileMemory} {k : SlotId} {e : Entry} {g : Sig}
  {v d : Half} {pin : Option Sig}

/-! ### The memory under a new pin -/

theorem ProfileMemory.entry_setPin (he : m.entry k = some e) (pin : Option Sig) :
    (m.setPin k pin).entry k = some { e with pinned := pin } := by
  unfold ProfileMemory.setPin
  rw [ProfileMemory.entry_toFront, ProfileMemory.entry_modEntry_same, he]
  rfl

theorem ProfileMemory.entry_setPin_ne {n : SlotId} (hn : n ≠ k) (pin : Option Sig) :
    (m.setPin k pin).entry n = m.entry n := by
  unfold ProfileMemory.setPin
  rw [ProfileMemory.entry_toFront, ProfileMemory.entry_modEntry_ne _ _ _ _ hn]

theorem ProfileMemory.recency_setPin (m : ProfileMemory) (k : SlotId) (pin : Option Sig) :
    (m.setPin k pin).recency = k :: (m.recency.filter fun n => n ≠ k) := ProfileMemory.recency_toFront _ _

theorem ProfileMemory.orderCount_setPin (m : ProfileMemory) (k : SlotId) (pin : Option Sig) :
    (m.setPin k pin).orderCount
      = if (m.setPin k pin).recency = m.recency then m.orderCount else m.orderCount + 1 :=
  ProfileMemory.orderCount_modEntry_toFront _ _ _

/-! ### Who is told -/

@[simp] theorem State.memory_tellPorts (n : Nat) (s : State) (l : List PortId) :
    (State.tellPorts n s l).memory = s.memory := by
  induction n generalizing s l with
  | zero => rfl
  | succ n ih =>
    rcases l with _ | ⟨a, _ | ⟨b, l⟩⟩
    · rfl
    · exact s.memory_computationCall a
    · obtain ⟨p, -, hp⟩ := s.freeChoice_mem (List.cons_ne_nil a (b :: l))
      simp only [State.tellPorts, hp]
      exact (ih _ _).trans (State.memory_computationCall _ _)

@[simp] theorem State.memory_setPin (s : State) (k : SlotId) (pin : Option Sig) :
    (s.setPin k pin).memory = s.memory.setPin k pin := by
  unfold State.setPin
  dsimp only
  split
  · exact State.memory_tellPorts _ _ _
  · rfl

/-- A pin set on an entry without users, or set to what it is, is told to nobody (R89). -/
theorem State.setPin_quiet (he : s.entry k = some e) (h : e.users = 0 ∨ e.pinned = pin) :
    s.setPin k pin = s.modMemory (·.setPin k pin) := by
  have hu : s.memory.inUse k = decide (0 < e.users) := ProfileMemory.inUse_eq he
  unfold State.setPin
  dsimp only
  rw [hu, he]
  refine if_neg ?_
  rcases h with h | h <;> simp [h]

theorem State.mem_boundPorts : r ∈ s.boundPorts k ↔ ((s.port r).session.any fun x => x.boundSlot == some k) = true := by
  unfold State.boundPorts
  have hmem : r ∈ allPorts := List.mem_finRange r
  simp [hmem, Option.any_eq_true]

/-- A changed pin of an entry in use is told to the ports bound to it (R89, R113). -/
theorem State.setPin_told (hexact : ExactLaw s) (he : s.entry k = some e) (hu : 0 < e.users) (hne : e.pinned ≠ pin) :
    Told (s.modMemory (·.setPin k pin)) (s.setPin k pin) (s.boundPorts k) := by
  have hin : s.memory.inUse k = decide (0 < e.users) := ProfileMemory.inUse_eq he
  have htell : s.setPin k pin = State.tellPorts 8 (s.modMemory (·.setPin k pin)) (s.boundPorts k) := by
    unfold State.setPin
    dsimp only
    rw [hin, he]
    exact if_pos (by simp [hu, hne])
  rw [htell]
  refine State.tellPorts_told 8 _ _ ?_ ((List.nodup_finRange 8).filter _) fun p _ c hc => ?_
  · exact (List.length_filter_le _ _).trans (by rw [allPorts, List.length_finRange])
  · rw [Port.shows, Bool.and_eq_true, Option.isNone_iff_eq_none, beq_iff_eq] at hc
    exact (hexact p).1 c hc.2 hc.1

theorem exec_pmPin (tag : Byte) (hr : s.host.inReset = false) (b : Byte) :
    exec (.pmPin tag v d b) s = .next (s.pmPin tag v d b) := congrArg _ (State.taking_running s _ hr)

theorem exec_pmUnpin (tag : Byte) (hr : s.host.inReset = false) :
    exec (.pmUnpin tag v d) s = .next (s.pmUnpin tag v d) := congrArg _ (State.taking_running s _ hr)

theorem exec_pmPin_found (tag : Byte) (hr : s.host.inReset = false) (hf : s.memory.find v d = some k) (g : Sig) :
    exec (.pmPin tag v d (BitVec.ofNat 8 g.rank)) s
      = .next ((s.setPin k (some g)).respondWith tag 0x24 (·.entryData k)) := by
  rw [exec_pmPin tag hr]
  unfold State.pmPin
  rw [sigOf_rank, hf]

theorem exec_pmUnpin_found (tag : Byte) (hr : s.host.inReset = false) (hf : s.memory.find v d = some k) :
    exec (.pmUnpin tag v d) s = .next ((s.setPin k none).respondWith tag 0x25 (·.entryData k)) := by
  rw [exec_pmUnpin tag hr]
  unfold State.pmUnpin
  rw [hf]

/-! ### The ports that are told -/

theorem Told.marked {l : List PortId} (h : Told s t l) (hr : r ∈ l) (hx : (s.port r).session = some x)
    (hm : (s.port r).marksDue x) : t.port r = { s.port r with session := some { x with recomputeDue := true } } := by
  obtain ⟨u, hu, -, -, ht, -⟩ := h.called r hr
  rw [ht, (State.computationCall_mark (by rw [hu]; exact hx) (by rw [hu]; exact hm)).1, hu]

theorem Told.idle {l : List PortId} (h : Told s t l) (hr : r ∈ l) (hx : (s.port r).session = some x)
    (hm : ¬(s.port r).marksDue x) (ha : ¬((s.port r).state = .occupied ∧ x.phase = some .steady ∧ x.shed = false)) :
    t.port r = s.port r := by
  obtain ⟨u, hu, -, -, ht, -⟩ := h.called r hr
  rw [ht, State.computationCall_idle (by rw [hu]; exact hx) (by rw [hu]; exact hm) (by rw [hu]; exact ha), hu]

/-- A told port that rests in STEADY makes its re-aim test, from its own unit and grant. -/
theorem Told.aimed {l : List PortId} (h : Told s t l) (hr : r ∈ l) (hx : (s.port r).session = some x)
    (hs : (s.port r).state = .occupied) (hp : x.phase = some .steady) :
    ∃ u : State, u.port r = s.port r ∧ u.grant r = s.grant r ∧ u.memory = s.memory ∧ t.port r = (u.reAim r).port r
      ∧ t.grant r = (u.reAim r).grant r := by
  obtain ⟨u, hu, hg, hm, ht, htg⟩ := h.called r hr
  rw [State.computationCall_aim (by rw [hu]; exact hx) (by rw [hu]; exact hs) hp] at ht htg
  exact ⟨u, hu, hg, hm, ht, htg⟩

/-! ### The sequence under a pin -/

/-- A pin passes at a port in its present mode (R25, R45). -/
theorem Port.pinPasses_now (q : Port) (policy : SessionPolicy) (g : Sig) :
    pinPasses policy q.modeNow g = true ↔ (q.pins.hen = false ∨ g = .P ∨ g = .A) ∧ g.rank ≤ policy.maxSig.rank := by
  have hmode : q.modeNow = .charge ↔ q.pins.hen = false := by
    unfold Port.modeNow
    cases q.pins.hen <;> simp
  rw [pinPasses_iff, hmode]

/-- A pinned entry gives its signature alone, presented, or nothing (R45, R46). -/
theorem State.computedSteps_pinned (hb : s.boundEntry x = some e) (hp : e.pinned = some g) (q : Port) :
    s.computedSteps false q.modeNow x
      = if ((q.pins.hen = false ∨ g = .P ∨ g = .A) ∧ g.rank ≤ x.policy.maxSig.rank)
          ∧ verdictIn x.verdicts g ≠ some .rejected then [⟨g, .present⟩] else [] := by
  unfold State.computedSteps
  rw [hb, orderedSteps_pinned _ _ _ hp]
  simp only [q.pinPasses_now]
  by_cases hpass : (q.pins.hen = false ∨ g = .P ∨ g = .A) ∧ g.rank ≤ x.policy.maxSig.rank
  · rw [if_pos hpass]
    cases hv : verdictIn x.verdicts g with
    | none => simp [underVerdicts, hv, hpass, stepUnder, cutAfterPresent]
    | some w => cases w <;> simp [underVerdicts, hv, hpass, stepUnder, cutAfterPresent]
  · rw [if_neg hpass, if_neg fun h => hpass h.1]
    rfl

/-- The re-aim test under a pin: the pinned signature is not the one presented (R68). -/
theorem State.aims_pinned (hb : x.boundSlot.bind s.entry = some e) (hp : e.pinned = some g) (q : Port)
    (steps : List TrialStep) : s.aims x q steps = (!steps.isEmpty && some g != q.presented) := by
  unfold State.aims
  rw [hb]
  cases steps with
  | nil => rfl
  | cons st rest => simp [hp]

/-- A session at rest that the pin of its entry moves on (R68, R110). -/
theorem State.reAim_pinned (hx : (s.port p).session = some x) (hshed : x.shed = false)
    (hpres : (s.port p).presented = x.presented) (hb : x.boundSlot.bind s.entry = some e) (hp : e.pinned = some g)
    (hpass : ((s.port p).pins.hen = false ∨ g = .P ∨ g = .A) ∧ g.rank ≤ x.policy.maxSig.rank)
    (hv : verdictIn x.verdicts g ≠ some .rejected) (hne : x.presented ≠ some g) :
    ∃ y, ((s.reAim p).port p).session = some y ∧ y.steps = [⟨g, .present⟩] ∧ y.current = some ⟨g, .present⟩
      ∧ (y.phase = some .representing ∨ y.phase = some .waitingBudget) := by
  have hsteps := State.computedSteps_pinned (s := s) (x := x) hb hp (s.port p)
  rw [if_pos ⟨hpass, hv⟩] at hsteps
  have hsh : (s.port p).shows g = false := by
    rw [Port.shows, hpres]
    simp [hne]
  have htest : (s.compute p false).reAimPasses p = true := by
    rw [State.reAimPasses_compute hx hpres, State.aims_pinned hb hp, hsteps, hpres]
    simp [Ne.symm hne]
  have hwalk : s.reAim p = (s.compute p false).walk p := by
    unfold State.reAim
    rw [hx, Option.any_some, hshed, if_neg Bool.false_ne_true]
    dsimp only
    rw [htest, if_pos rfl, State.takeStep_unblocked (s.headBlocked_compute p false)]
  have hport := State.port_compute s p false
  rw [hx] at hport
  obtain ⟨y, hy, -, htook⟩ := (State.compute_walk_stepped hx false).session
  obtain ⟨z, hz, hcur⟩ := State.walk_current (st := ⟨g, .present⟩) (rest := []) (congrArg Port.session hport)
    (s.headBlocked_compute p false) hsteps (by rw [hport]; exact hsh)
  obtain rfl : y = z := Option.some.inj (hy.symm.trans hz)
  rw [hsteps] at htook
  rw [hwalk]
  simp only [Session.took, List.head?_cons, hsh, Bool.false_eq_true, if_false, Bool.or_eq_true, Bool.and_eq_true, beq_iff_eq] at htook
  rcases htook with ⟨⟨-, hph⟩, hst⟩ | ⟨hph, hst⟩
  · exact ⟨y, hy, hst, hcur, Or.inr hph⟩
  · exact ⟨y, hy, hst, hcur, Or.inl hph⟩

end Sys2Proof.Machine
end

section
/-! The pin of an entry and the sessions bound to it. -/

namespace Sys2Proof.Machine

variable {s t u : State} {p r : PortId} {q : Port} {x y : Session} {k : SlotId} {e : Entry} {g : Sig}
  {v d : Half} {pin : Option Sig}

theorem Session.reAimed_memory {y : Session} (hm : t.memory = u.memory) (q : Port) (g : Nat) :
    y.reAimed t q g = y.reAimed u q g := by
  have hsteps : t.computedSteps false q.modeNow y = u.computedSteps false q.modeNow y :=
    State.computedSteps_congr hm rfl false q.modeNow
  unfold Session.reAimed
  rw [hsteps, State.aims_congr hm rfl rfl]

/-- What the memory holds once a pin is set (R95, R96). -/
theorem State.entries_setPin (he : s.entry k = some e) (pin : Option Sig) :
    (s.setPin k pin).entry k = some { e with pinned := pin } ∧ (∀ n, n ≠ k → (s.setPin k pin).entry n = s.entry n)
      ∧ (s.setPin k pin).memory.recency = k :: (s.memory.recency.filter fun n => n ≠ k)
      ∧ (s.setPin k pin).memory.orderCount
          = (if (s.setPin k pin).memory.recency = s.memory.recency then s.memory.orderCount else s.memory.orderCount + 1) := by
  have hmem := s.memory_setPin k pin
  refine ⟨?_, fun n hn => ?_, ?_, ?_⟩
  · exact (congrArg (fun m : ProfileMemory => m.entry k) hmem).trans (ProfileMemory.entry_setPin he pin)
  · exact (congrArg (fun m : ProfileMemory => m.entry n) hmem).trans (ProfileMemory.entry_setPin_ne hn pin)
  · rw [hmem, ProfileMemory.recency_setPin]
  · rw [hmem, ProfileMemory.orderCount_setPin]

/-- A pin that nobody is told of leaves the rest of the part. -/
theorem State.setPin_alone (he : s.entry k = some e) (h : e.users = 0 ∨ e.pinned = pin) :
    (s.setPin k pin).ports = s.ports ∧ (s.setPin k pin).budget = s.budget ∧ (s.setPin k pin).notices = s.notices := by
  rw [State.setPin_quiet he h]
  exact ⟨rfl, rfl, rfl⟩

/-- What a pin change makes of a port, wherever its session stands but at rest in STEADY (R89, R110 to R113). -/
theorem State.setPin_calls (h : Told (s.modMemory (·.setPin k pin)) t (s.boundPorts k)) :
    (∀ q, ((s.port q).session.any fun x => x.boundSlot == some k) = false → t.port q = s.port q ∧ t.grant q = s.grant q)
    ∧ ∀ q x, (s.port q).session = some x → x.boundSlot = some k →
        ((s.port q).marksDue x → t.port q = { s.port q with session := some { x with recomputeDue := true } })
        ∧ (¬(s.port q).marksDue x → ¬((s.port q).state = .occupied ∧ x.phase = some .steady ∧ x.shed = false) →
            t.port q = s.port q) := by
  refine ⟨fun q hq => h.others q fun hm => ?_, fun q x hx hb => ?_⟩
  · rw [State.mem_boundPorts, hq] at hm
    cases hm
  · have hm : q ∈ s.boundPorts k := by
      rw [State.mem_boundPorts, hx]
      simp [hb]
    exact ⟨h.marked hm hx, h.idle hm hx⟩

/-- A session at rest in STEADY, told of a pin change: the re-aim test under the new pin, from its own unit (R68, R110). -/
theorem State.setPin_aims (h : Told (s.modMemory (·.setPin k pin)) t (s.boundPorts k)) (hx : (s.port p).session = some x)
    (hb : x.boundSlot = some k) (hs : (s.port p).state = .occupied) (hp : x.phase = some .steady) :
    ∃ u : State, u.port p = s.port p ∧ u.grant p = s.grant p ∧ u.memory = s.memory.setPin k pin
      ∧ t.port p = (u.reAim p).port p ∧ t.grant p = (u.reAim p).grant p ∧ t.memory = u.memory := by
  have hm : p ∈ s.boundPorts k := by
    rw [State.mem_boundPorts, hx]
    simp [hb]
  obtain ⟨u, h1, h2, h3, h4, h5⟩ := h.aimed hm hx hs hp
  exact ⟨u, h1, h2, h3, h4, h5, h.memory.trans h3.symm⟩

/-- A session at rest that fails the re-aim test keeps its port (R68). -/
theorem State.reAim_fails (hx : (u.port p).session = some x) (hshed : x.shed = false)
    (hpres : (u.port p).presented = x.presented)
    (hno : u.aims x (u.port p) (u.computedSteps false (u.port p).modeNow x) = false) :
    (u.reAim p).port p = { u.port p with session := some { x with
        mode := (u.port p).modeNow, remaining := [], recomputeDue := false } } ∧ (u.reAim p).grant p = u.grant p :=
  (State.reAim_reAimed hx hshed).rests ((State.reAimPasses_compute hx hpres).trans hno)

/-- Settles O21: a pin is set or cleared on the entry of a key, and the sessions bound to it make their calls. -/
theorem pmPinAndUnpinSetThePin : Obligations.PmPinAndUnpinSetThePin := by
  unfold Obligations.PmPinAndUnpinSetThePin
  intro s tag b v d g k hr hm
  have found : ∀ e, s.entry k = some e → e.vendor = v → e.product = d → s.memory.find v d = some k := by
    rintro e he rfl rfl
    exact ProfileMemory.find_eq hm he
  refine ⟨fun hb => ?badSignature, fun habsent => ?absent, fun e he hv hd => ⟨?pin, ?unpin⟩,
    fun hexact e he hv hd hu hne => ?pinTold, fun hexact e he hv hd hu hne => ?unpinTold⟩
  case badSignature =>
    refine refused_of_exec ((exec_pmPin tag hr b).trans (congrArg _ ?_))
    unfold State.pmPin
    rw [hb]
  case absent =>
    have hf : s.memory.find v d = none := ProfileMemory.find_eq_none habsent
    refine ⟨refused_of_exec ((exec_pmPin tag hr _).trans (congrArg _ ?_)),
      refused_of_exec ((exec_pmUnpin tag hr).trans (congrArg _ ?_))⟩
    · unfold State.pmPin
      rw [sigOf_rank, hf]
    · unfold State.pmUnpin
      rw [hf]
  case pin =>
    obtain ⟨h1, h2, h3, h4⟩ := State.entries_setPin he (some g)
    exact ⟨_, exec_pmPin_found tag hr (found e he hv hd) g, h1, h2, h3, h4, replied_respond _ _ _ _ _,
      s.pending_setPin k (some g), State.setPin_alone he⟩
  case unpin =>
    obtain ⟨h1, h2, h3, h4⟩ := State.entries_setPin he none
    exact ⟨_, exec_pmUnpin_found tag hr (found e he hv hd), h1, h2, h3, h4, replied_respond _ _ _ _ _,
      s.pending_setPin k none, State.setPin_alone he⟩
  case pinTold =>
    have htold := State.setPin_told hexact he hu hne
    obtain ⟨hothers, hcalls⟩ := State.setPin_calls htold
    refine ⟨_, exec_pmPin_found tag hr (found e he hv hd) g, hothers, fun q x hx hb => ?_⟩
    obtain ⟨hmark, hidle⟩ := hcalls q x hx hb
    refine ⟨hmark, hidle, fun hs hp hshed hpres => ?_⟩
    obtain ⟨u, h1, -, h3, h4, -⟩ := State.setPin_aims htold hx hb hs hp
    have hux : (u.port q).session = some x := by rw [h1]; exact hx
    have hupres : (u.port q).presented = x.presented := by rw [h1]; exact hpres
    have hentry : x.boundSlot.bind u.entry = some { e with pinned := some g } := by
      rw [hb]
      exact (congrArg (fun m : ProfileMemory => m.entry k) h3).trans (ProfileMemory.entry_setPin he (some g))
    have hsteps := State.computedSteps_pinned (s := u) (x := x) (g := g) hentry rfl (u.port q)
    refine ⟨fun hfail => ?fails, fun hpass hrank hv hne => ?moves⟩
    case fails =>
      have hno : u.aims x (u.port q) (u.computedSteps false (u.port q).modeNow x) = false := by
        rw [State.aims_pinned (g := g) hentry rfl, hsteps, h1, hpres]
        rcases hfail with hfail | hsame
        · rw [if_neg fun h => hfail ⟨h.1.1, h.1.2, h.2⟩]
          rfl
        · simp [hsame]
      have hafter := (State.reAim_fails hux hshed hupres hno).1
      rw [h1] at hafter
      exact h4.trans hafter
    case moves =>
      rw [← h1] at hpass
      obtain ⟨y, hy, hst, hcur, hph⟩ := State.reAim_pinned hux hshed hupres hentry rfl ⟨hpass, hrank⟩ hv hne
      have hses : (((s.setPin k (some g)).respondWith tag 0x24 (·.entryData k)).port q).session = some y :=
        (congrArg Port.session h4).trans hy
      rw [hses]
      rcases hph with h | h <;> simp [hst, hcur, h]
  case unpinTold =>
    have htold := State.setPin_told hexact he hu hne
    obtain ⟨hothers, hcalls⟩ := State.setPin_calls htold
    refine ⟨_, exec_pmUnpin_found tag hr (found e he hv hd), hothers, fun q x hx hb => ?_⟩
    obtain ⟨hmark, hidle⟩ := hcalls q x hx hb
    refine ⟨hmark, hidle, fun hs hp hshed hpres => ?_⟩
    obtain ⟨u, h1, h2, -, h4, h5, h6⟩ := State.setPin_aims htold hx hb hs hp
    have hux : (u.port q).session = some x := by rw [h1]; exact hx
    have hupres : (u.port q).presented = x.presented := by rw [h1]; exact hpres
    have hmem : ((s.setPin k none).respondWith tag 0x25 (·.entryData k)).memory = u.memory := h6
    have hport : ((s.setPin k none).respondWith tag 0x25 (·.entryData k)).port q = (u.reAim q).port q := h4
    have hgrant : ((s.setPin k none).respondWith tag 0x25 (·.entryData k)).grant q = (u.reAim q).grant q := h5
    generalize (s.setPin k none).respondWith tag 0x25 (·.entryData k) = t at *
    refine ⟨?_, fun hno => ?_⟩
    · obtain ⟨y, hy, -, haim⟩ := (State.reAim_reAimed hux hshed).session
      have h := haim hp hupres
      rw [Session.reAimed_memory (hmem.trans (u.memory_reAim q).symm).symm, h1, h2] at h
      rw [hport, hy]
      exact h
    · have hsteps : t.computedSteps false (s.port q).modeNow x = u.computedSteps false (s.port q).modeNow x :=
        State.computedSteps_congr hmem rfl false (s.port q).modeNow
      rw [hsteps, State.aims_congr hmem rfl rfl] at hno
      obtain ⟨hafter, hg⟩ := State.reAim_fails hux hshed hupres (by rw [h1]; exact hno)
      rw [h1] at hafter
      exact ⟨hport.trans hafter, hgrant.trans (hg.trans h2)⟩

end Sys2Proof.Machine
end

section
/-! What a Post Identity makes of the memory and the session's binding. -/

namespace Sys2Proof.Machine

variable {s t u : State} {p : PortId} {x y : Session} {m : ProfileMemory} {k n : SlotId} {e : Entry} {i : Identity}

/-! ### Folding at the front of the recency list -/

/-- A slot stands at the front of the recency list. -/
def ProfileMemory.atFront (m : ProfileMemory) (n : SlotId) : Prop := n :: m.recency.filter (· ≠ n) = m.recency

theorem ProfileMemory.toFront_of_atFront (h : m.atFront n) : m.toFront n = m := if_pos h

theorem ProfileMemory.atFront_of_recency {l : List SlotId} (h : m.recency = n :: l.filter (· ≠ n)) : m.atFront n := by
  unfold ProfileMemory.atFront
  rw [h, List.filter_cons_of_neg (by simp), List.filter_filter]
  simp

theorem ProfileMemory.atFront_toFront (m : ProfileMemory) (n : SlotId) : (m.toFront n).atFront n :=
  ProfileMemory.atFront_of_recency (ProfileMemory.recency_toFront m n)

/-- Verdicts folded one after another into the entry of a slot (R77, R105). -/
def ProfileMemory.foldAll (n : SlotId) (l : List VerdictEntry) (m : ProfileMemory) : ProfileMemory :=
  l.foldl (fun m w => m.fold n w.sig (w.verdict = .accepted)) m

/-- Folds into the front entry change its tallies alone. -/
theorem ProfileMemory.foldAll_atFront (l : List VerdictEntry) (he : m.entry n = some e) (hf : m.atFront n) :
    (m.foldAll n l).entry n = some { e with tallies := e.tallies.foldAll l }
      ∧ (∀ k, k ≠ n → (m.foldAll n l).entry k = m.entry k)
      ∧ (m.foldAll n l).recency = m.recency ∧ (m.foldAll n l).orderCount = m.orderCount := by
  induction l generalizing m e with
  | nil => exact ⟨he, fun _ _ => rfl, rfl, rfl⟩
  | cons w l ih =>
    have hfold : m.fold n w.sig (w.verdict = .accepted)
        = m.modEntry n fun e => { e with tallies := e.tallies.modify (Tally.fold (w.verdict = .accepted)) w.sig } := by
      rw [ProfileMemory.fold_eq he]
      exact ProfileMemory.toFront_of_atFront (m := m.modEntry n _) hf
    have hent := ProfileMemory.entry_modEntry_same m n
      fun e => { e with tallies := e.tallies.modify (Tally.fold (w.verdict = .accepted)) w.sig }
    rw [he] at hent
    obtain ⟨h1, h2, h3, h4⟩ := ih (m := m.modEntry n _) hent hf
    have hall : m.foldAll n (w :: l) = (m.modEntry n fun e =>
        { e with tallies := e.tallies.modify (Tally.fold (w.verdict = .accepted)) w.sig }).foldAll n l :=
      congrArg (ProfileMemory.foldAll n l) hfold
    rw [hall]
    exact ⟨h1, fun k hk => (h2 k hk).trans (ProfileMemory.entry_modEntry_ne _ _ _ _ hk), h3, h4⟩

theorem State.foldRequests_eq (l : List VerdictEntry) (s : State) (n : SlotId) :
    l.foldl (fun t v => t.foldRequest n v.sig (v.verdict = .accepted)) s = s.modMemory (·.foldAll n l) := by
  induction l generalizing s with
  | nil => rfl
  | cons w l ih => exact ih (s.foldRequest n w.sig (w.verdict = .accepted))

/-! ### The hand-over -/

theorem Session.pendingVerdicts_eq (x : Session) : x.verdicts.filter (·.handedOver) = x.pendingVerdicts := by
  unfold Session.pendingVerdicts
  refine List.filter_congr fun w _ => ?_
  unfold VerdictEntry.handedOver
  rw [Verdict.counts_eq]

theorem Session.toHandOver_eq (x : Session) : x.toHandOver = x.pendingVerdicts.length := by
  rw [Session.toHandOver, x.pendingVerdicts_eq]

theorem Session.verdictsFolded_eq (x : Session) :
    (x.verdicts.map fun v => if v.handedOver then { v with folded := true } else v) = x.verdictsFolded := by
  unfold Session.verdictsFolded
  refine List.map_congr_left fun w _ => ?_
  obtain ⟨sig, verdict, folded⟩ := w
  cases verdict <;> cases folded <;> rfl

/-- The verdicts a hand-over folds: none into a PINNED entry (R105). -/
def Session.foldedInto (x : Session) (e : Entry) : List VerdictEntry := if e.pinned.isSome then [] else x.pendingVerdicts

/-- A session bound to a slot with its verdicts handed over (R104, R105). -/
def Session.boundTo (x : Session) (i : Identity) (k : SlotId) : Session :=
  { x with identity := some i, boundSlot := some k, verdicts := x.verdictsFolded }

/-- What a binding leaves of the part: the session's record, the memory, and the rest as it was. -/
structure Posted (p : PortId) (s u : State) (y : Session) (m : ProfileMemory) : Prop where
  port : u.port p = { s.port p with session := some y }
  others : ∀ r, r ≠ p → u.port r = s.port r
  budget : u.budget = s.budget
  memory : u.memory = m

/-- A hand-over at a slot whose entry stands at the front (R105). -/
theorem State.handOver_posted (h : Posted p s u { y with verdicts := x.verdicts } m) (he : m.entry k = some e) :
    Posted p s (u.handOver p k x) { y with verdicts := x.verdictsFolded } (m.foldAll k (x.foldedInto e))
      ∧ (u.handOver p k x).notices = u.notices := by
  have hmark := State.port_modSession_same u p fun y =>
    { y with verdicts := y.verdicts.map fun v => if v.handedOver then { v with folded := true } else v }
  rw [h.port] at hmark
  have hport : (u.modSession p fun y =>
      { y with verdicts := y.verdicts.map fun v => if v.handedOver then { v with folded := true } else v }).port p
      = { s.port p with session := some { y with verdicts := x.verdictsFolded } } := by
    rw [hmark, ← x.verdictsFolded_eq]
    rfl
  have hothers : ∀ r, r ≠ p → (u.modSession p fun y =>
      { y with verdicts := y.verdicts.map fun v => if v.handedOver then { v with folded := true } else v }).port r
      = s.port r := fun r hr => (State.port_modSession_ne _ _ _ _ hr).trans (h.others r hr)
  have hent : u.entry k = some e := (congrArg (fun m : ProfileMemory => m.entry k) h.memory).trans he
  unfold State.handOver
  dsimp only
  rw [hent, Option.any_some, x.pendingVerdicts_eq]
  unfold Session.foldedInto
  cases hp : e.pinned with
  | none =>
    rw [if_pos (by rfl), State.foldRequests_eq]
    exact ⟨⟨hport, hothers, h.budget, congrArg (ProfileMemory.foldAll k x.pendingVerdicts) h.memory⟩, rfl⟩
  | some g =>
    rw [if_neg (by simp)]
    exact ⟨⟨hport, hothers, h.budget, h.memory⟩, rfl⟩

/-! ### The bind request -/

theorem ProfileMemory.bind_found {v d r : Half} (hf : m.find v d = some k) (he : m.entry k = some e) :
    m.bindAnswer v d = .found k ∧ (m.bind ⟨v, d, r⟩).atFront k
      ∧ (m.bind ⟨v, d, r⟩).entry k = some { e.releaseChange r with users := e.users + 1 }
      ∧ (∀ n, n ≠ k → (m.bind ⟨v, d, r⟩).entry n = m.entry n)
      ∧ (m.bind ⟨v, d, r⟩).recency = k :: (m.recency.filter fun n => n ≠ k)
      ∧ (m.bind ⟨v, d, r⟩).orderCount
          = if (m.bind ⟨v, d, r⟩).recency = m.recency then m.orderCount else m.orderCount + 1 := by
  have hbind : m.bind ⟨v, d, r⟩ = (m.modEntry k fun e => { e.releaseChange r with users := e.users + 1 }).toFront k := by
    unfold ProfileMemory.bind
    rw [hf]
  rw [hbind]
  refine ⟨by rw [ProfileMemory.bindAnswer, hf], ProfileMemory.atFront_toFront _ _, ?_, fun n hn => ?_,
    ProfileMemory.recency_toFront _ _, ProfileMemory.orderCount_modEntry_toFront _ _ _⟩
  · rw [ProfileMemory.entry_toFront, ProfileMemory.entry_modEntry_same, he]
    rfl
  · rw [ProfileMemory.entry_toFront, ProfileMemory.entry_modEntry_ne _ _ _ _ hn]

/-- A new entry goes to the lowest vacant slot, or to the one an eviction takes (R83 to R86). -/
theorem ProfileMemory.bind_new {v d r : Half} (hf : m.find v d = none) (hk : m.room = .vacant k ∨ m.room = .evict k) :
    m.bindAnswer v d = .inserted k ∧ (m.bind ⟨v, d, r⟩).atFront k
      ∧ (m.bind ⟨v, d, r⟩).entry k = some (Entry.fresh v d r)
      ∧ (∀ n, n ≠ k → (m.bind ⟨v, d, r⟩).entry n = m.entry n)
      ∧ (m.bind ⟨v, d, r⟩).recency = k :: (m.recency.filter fun n => n ≠ k)
      ∧ (m.bind ⟨v, d, r⟩).orderCount = m.orderCount + 1 := by
  have hbind : m.bind ⟨v, d, r⟩ = m.insertFront k (Entry.fresh v d r) := by
    unfold ProfileMemory.bind
    rcases hk with hk | hk <;> rw [hf, hk]
  have hanswer : m.bindAnswer v d = .inserted k := by
    unfold ProfileMemory.bindAnswer
    rcases hk with hk | hk <;> rw [hf, hk]
  rw [hbind]
  refine ⟨hanswer, ProfileMemory.atFront_of_recency (l := m.recency) rfl, ?_, fun n hn => ?_, rfl, rfl⟩
  · rw [ProfileMemory.entry_insertFront, if_pos rfl]
  · rw [ProfileMemory.entry_insertFront, if_neg hn]

/-- The notices of a bind request: an eviction and a full memory are told (R84, R87). -/
theorem State.notices_bindRequest (s : State) (v d r : Half) :
    (∀ n, s.memory.find v d = some n → (s.bindRequest v d r).notices = s.notices)
    ∧ (s.memory.find v d = none →
        (∀ n, s.memory.room = .vacant n → (s.bindRequest v d r).notices = s.notices)
        ∧ (∀ n, s.memory.room = .evict n → (s.bindRequest v d r).notices = (s.raiseDevice .pmEvict).notices)
        ∧ (s.memory.room = .full → s.bindRequest v d r = s.raiseDevice .pmFull)) := by
  unfold State.bindRequest
  refine ⟨fun n hn => ?_, fun hf => ⟨fun n hr => ?_, fun n hr => ?_, fun hr => ?_⟩⟩
  · rw [hn]
    rfl
  · rw [hf, hr]
    rfl
  · rw [hf, hr]
    rfl
  · rw [hf, hr]

theorem State.bindRequest_frame (s : State) (v d r : Half) :
    (s.bindRequest v d r).ports = s.ports ∧ (s.bindRequest v d r).budget = s.budget
      ∧ (s.bindRequest v d r).memory = s.memory.bind ⟨v, d, r⟩ := by
  refine ⟨?_, ?_, s.memory_bindRequest ⟨v, d, r⟩⟩
  all_goals
    unfold State.bindRequest
    cases s.memory.find v d with
    | some n => rfl
    | none => cases s.memory.room <;> rfl

/-- A bind answered with a slot, with its hand-over, for a session without a binding (R104, R105). -/
theorem State.bindSession_posted {v d r : Half}
    (h : Posted p s u { x with identity := some ⟨v, d, r⟩, boundSlot := none } m)
    (ha : (m.bindAnswer v d).slot = some k)
    (he : (m.bind ⟨v, d, r⟩).entry k = some e) :
    Posted p s (u.bindSession p x ⟨v, d, r⟩) (x.boundTo ⟨v, d, r⟩ k)
        ((m.bind ⟨v, d, r⟩).foldAll k (x.foldedInto e))
      ∧ (u.bindSession p x ⟨v, d, r⟩).notices = (u.bindRequest v d r).notices := by
  obtain ⟨hports, hbudget, hmemory⟩ := u.bindRequest_frame v d r
  have hport : ∀ q, (u.bindRequest v d r).port q = u.port q := fun q =>
    congrArg (fun l : Vector Port 8 => l[q.val]) hports
  have hbound : Posted p s ((u.bindRequest v d r).modSession p fun y => { y with boundSlot := some k })
      { ({ x with identity := some ⟨v, d, r⟩, boundSlot := some k } : Session) with verdicts := x.verdicts }
      (m.bind ⟨v, d, r⟩) := by
    refine ⟨?_, fun q hq => ?_, hbudget.trans h.budget, hmemory.trans (by rw [h.memory])⟩
    · rw [State.port_modSession_same, hport, h.port]
      rfl
    · rw [State.port_modSession_ne _ _ _ _ hq, hport, h.others q hq]
  have htake : u.bindSession p x ⟨v, d, r⟩
      = ((u.bindRequest v d r).modSession p fun y => { y with boundSlot := some k }).handOver p k x := by
    unfold State.bindSession
    dsimp only
    rw [h.memory]
    cases hans : m.bindAnswer v d with
    | found n =>
      rw [hans] at ha
      cases ha
      rfl
    | inserted n =>
      rw [hans] at ha
      cases ha
      rfl
    | full =>
      rw [hans] at ha
      cases ha
  rw [htake]
  obtain ⟨hposted, hnotices⟩ := State.handOver_posted hbound he
  exact ⟨hposted, hnotices⟩

theorem State.bindSession_full {v d r : Half}
    (h : Posted p s u { x with identity := some ⟨v, d, r⟩, boundSlot := none } m)
    (hf : m.find v d = none) (hr : m.room = .full) :
    u.bindSession p x ⟨v, d, r⟩ = u.raiseDevice .pmFull := by
  have ha : m.bindAnswer v d = .full := by
    unfold ProfileMemory.bindAnswer
    rw [hf, hr]
  unfold State.bindSession
  dsimp only
  rw [← h.memory] at hf hr
  rw [h.memory, ha, ((u.notices_bindRequest v d r).2 hf).2.2 hr]
  rfl

/-! ### The session without its old binding -/

theorem State.setIdentity_posted (hx : (s.port p).session = some x) (i : Identity) :
    Posted p s (s.setIdentity p i) { x with identity := some i } s.memory := by
  refine ⟨?_, fun r hr => State.port_modSession_ne _ _ _ _ hr, rfl, rfl⟩
  rw [State.setIdentity, State.port_modSession_same, hx]
  rfl

/-- The state in which the bind request of a Post Identity is made (R104, R108 step 1). -/
def State.toBind (s : State) (p : PortId) (x : Session) (i : Identity) : State :=
  x.boundSlot.elim (s.setIdentity p i) fun n => (s.setIdentity p i).unbindForRebind p n

theorem State.toBind_posted (hx : (s.port p).session = some x) (i : Identity) :
    Posted p s (s.toBind p x i) { x with identity := some i, boundSlot := none } (s.memoryForBind x)
      ∧ (s.toBind p x i).notices = s.notices := by
  have h := State.setIdentity_posted hx i
  unfold State.toBind State.memoryForBind
  cases hb : x.boundSlot with
  | none =>
    refine ⟨⟨h.port.trans ?_, h.others, h.budget, h.memory⟩, rfl⟩
    rw [← hb]
  | some n =>
    refine ⟨⟨?_, fun r hr => ?_, rfl, rfl⟩, rfl⟩
    · exact (State.port_modSession_same _ _ _).trans (by rw [State.unbindRequest, State.port_modMemory, h.port]; rfl)
    · exact (State.port_modSession_ne _ _ _ _ hr).trans (h.others r hr)

end Sys2Proof.Machine
end

section
/-! What a Post Identity makes of the trials. -/

namespace Sys2Proof.Machine

variable {s t u : State} {p : PortId} {q : Port} {x y : Session} {m : ProfileMemory} {k n : SlotId} {e : Entry} {i : Identity}

/-! ### Which Post Identity it is -/

theorem Session.postKind_confirm (hb : x.boundSlot = some k) (hs : x.sameKey i = true) : x.postKind i = .confirm k := by
  rw [Session.postKind, hb]
  exact if_pos hs

theorem Session.postKind_bind (hb : x.boundSlot = none) (i : Identity) : x.postKind i = .bind := by
  rw [Session.postKind, hb]

theorem Session.postKind_rebind (hb : x.boundSlot = some k) (hs : x.sameKey i = false) : x.postKind i = .rebind k := by
  rw [Session.postKind, hb]
  exact if_neg (Bool.eq_false_iff.mp hs)

/-- A Post Identity that binds: the session is unbound, or bound under another key (R103). -/
def Session.binds (x : Session) (i : Identity) : Prop := x.boundSlot = none ∨ x.sameKey i = false

theorem Session.postKind_of_binds (h : x.binds i) :
    x.postKind i = x.boundSlot.elim .bind .rebind := by
  cases hb : x.boundSlot with
  | none => exact Session.postKind_bind hb i
  | some k => exact Session.postKind_rebind hb (h.resolve_left (by simp [hb]))

theorem State.memoryAtBind_eq (h : x.binds i) (s : State) : s.memoryAtBind x i = s.memoryForBind x := by
  unfold State.memoryAtBind State.memoryForBind
  rw [Session.postKind_of_binds h]
  cases x.boundSlot <;> rfl

theorem State.postBinding_eq (h : x.binds i) (s : State) (p : PortId) :
    s.postBinding p x i = x.boundSlot.elim ((s.toBind p x i).bindSession p x i)
      fun _ => ((s.toBind p x i).bindSession p x i).raisePort p .identity := by
  unfold State.postBinding State.toBind
  rw [Session.postKind_of_binds h]
  cases x.boundSlot <;> rfl

theorem State.postBinding_confirm (hb : x.boundSlot = some k) (hs : x.sameKey i = true) (s : State) (p : PortId) :
    s.postBinding p x i = (s.setIdentity p i).confirmRequest k i.release := by
  unfold State.postBinding
  rw [Session.postKind_confirm hb hs]

theorem State.postCalls_binds (h : x.binds i) (s : State) :
    s.postCalls x i = (x.boundSlot.isSome || s.postAnswer x i != .full) := by
  unfold State.postCalls
  rw [Session.postKind_of_binds h]
  cases x.boundSlot <;> rfl

/-! ### The effect on the trials -/

/-- The parts of a session that a Post Identity settles before it acts on the trials. -/
def Session.posted (x : Session) : Half × Option Identity × Option SlotId × List VerdictEntry × Option Phase :=
  (x.number, x.identity, x.boundSlot, x.verdicts, x.held)

theorem Session.posted_of_core {z : Session} (h : z.core = y.core) : z.posted = y.posted := by
  have h1 := congrArg Session.posted h
  exact h1

/-- What a computation call keeps (R110 to R113). -/
theorem State.computationCall_kept (hy : (u.port p).session = some y) :
    ((u.computationCall p).port p).state = (u.port p).state
      ∧ ∃ z, ((u.computationCall p).port p).session = some z ∧ z.posted = y.posted := by
  unfold State.computationCall
  cases (u.port p).callEffect with
  | nothing => exact ⟨rfl, y, hy, rfl⟩
  | mark =>
    dsimp only
    unfold State.markDue
    rw [State.port_modSession_same]
    exact ⟨rfl, { y with recomputeDue := true }, session_map _ hy, rfl⟩
  | aim =>
    dsimp only
    cases hshed : y.shed with
    | true =>
      rw [State.reAim_shed hy hshed]
      exact ⟨rfl, y, hy, rfl⟩
    | false =>
      have h := State.reAim_reAimed hy hshed
      obtain ⟨z, hz, hc, -⟩ := h.session
      have hstate := congrArg Port.state h.frame
      exact ⟨hstate, z, hz, (Session.posted_of_core hc).trans rfl⟩

/-- The parts of a session that decide what a computation call does to it (R110 to R112). -/
def Session.sameWalk (x y : Session) : Prop :=
  y.phase = x.phase ∧ y.held = x.held ∧ y.current = x.current ∧ y.shed = x.shed ∧ y.presented = x.presented

/-- A call at a session whose binding is new (R110 to R112). -/
theorem CallMade.of_posted (h : Posted p s u y m) (hw : x.sameWalk y) : CallMade s (u.computationCall p) p x := by
  obtain ⟨hphase, hheld, hcurrent, hshed, hpres⟩ := hw
  have hy : (u.port p).session = some y := by rw [h.port]
  refine ⟨fun hm => ?_, fun hs hp hx => ⟨fun hfree => ?_, fun hset => ?_⟩⟩
  · have hm' : (u.port p).marksDue y := by
      unfold Port.marksDue at hm ⊢
      rw [h.port, hphase, hheld, hcurrent]
      exact hm
    rw [(State.computationCall_mark hy hm').1]
    rfl
  · rw [State.computationCall_aim hy (by rw [h.port]; exact hs) (hphase.trans hp)]
    obtain ⟨z, hz, -, haim⟩ := (State.reAim_reAimed hy (hshed.trans hfree)).session
    have h1 := haim (hphase.trans hp) (by rw [h.port, hpres]; exact hx)
    rw [Session.reAimed_congr (q := s.port p) (by rw [h.port]) (by rw [h.port]) (by rw [h.port]),
      show u.grant p = s.grant p from congrArg (fun b : Budget => b.grants[p.val]) h.budget] at h1
    rw [hz]
    exact h1
  · rw [State.computationCall_aim hy (by rw [h.port]; exact hs) (hphase.trans hp),
      State.reAim_shed hy (hshed.trans hset)]
    refine ⟨by rw [h.port], ?_⟩
    rw [State.phase, hy]
    exact hphase.trans hp

theorem Untouched.modTimers (h : Untouched p s t) (f : Timers → Timers) : Untouched p s (t.modTimers p f) := h.modPort _

theorem Asked.beginTrials (hex : ∀ c, (s.port p).shows c = true → c.offered = s.grant p) :
    Asked p s (s.beginTrials p) := by
  have hport := State.port_modSession_same s p fun x => { x with trialsBegun := true }
  refine Asked.of_untouched ((Untouched.refl p s).modSession fun x => { x with trialsBegun := true })
    (Asked.recompute fun c hc => ?_)
  rw [hport] at hc
  exact hex c hc

/-- What a Post Identity leaves once it has acted on the trials. -/
structure Acted (p : PortId) (s u t : State) (x y : Session) (calls : Bool) : Prop where
  asked : Asked p u t
  memory : t.memory = u.memory
  state : (t.port p).state = (s.port p).state
  session : ∃ z, (t.port p).session = some z ∧ z.posted = y.posted
  identifying : (s.port p).state = .occupied → x.phase = some .identifying →
    ((t.port p).session.any fun z => z.trialsBegun && z.mode == (s.port p).modeNow
      && z.took (s.port p) (s.grant p) (t.computedSteps false (s.port p).modeNow z)) = true
      ∧ (t.port p).timers.identityWait = none
  called : calls = true → CallMade s t p x
  idle : calls = false → x.phase ≠ some .identifying → t = u

/-- A Post Identity ends IDENTIFYING, and otherwise makes its call (R110 to R112). -/
theorem State.postActs_acted (h : Posted p s u y m) (hw : x.sameWalk y) (hex : (s.port p).exactLaw (s.grant p))
    (calls : Bool) : Acted p s u (u.postActs p calls) x y calls := by
  have hy : (u.port p).session = some y := by rw [h.port]
  have hphase : u.phase p = x.phase := by
    rw [State.phase, hy]
    exact hw.1
  have hstate : (u.port p).state = (s.port p).state := by rw [h.port]
  have hgrant : u.grant p = s.grant p := congrArg (fun b : Budget => b.grants[p.val]) h.budget
  have hexu : ∀ c, (u.port p).shows c = true → c.offered = u.grant p := fun c hc => by
    rw [h.port, Port.shows, Bool.and_eq_true, Option.isNone_iff_eq_none, beq_iff_eq] at hc
    rw [hgrant]
    exact hex.1 c hc.2 hc.1
  unfold State.postActs
  by_cases hid : (s.port p).state = .occupied ∧ x.phase = some .identifying
  · rw [hstate, hphase, if_pos (by simpa using hid)]
    have hport := State.port_modTimers_same u p fun t => { t with identityWait := none }
    have hv : ((u.modTimers p fun t => { t with identityWait := none }).port p).session = some y := by
      rw [hport]
      exact hy
    have hstep := State.beginTrials_stepped hv
    obtain ⟨-, hwait, -⟩ := hstep.timers
    have hst := hstep.state
    rw [hport] at hwait hst
    obtain ⟨z, hz, hc, ht⟩ := hstep.session
    have hmode := congrArg Session.mode hc
    have hbegun := congrArg Session.trialsBegun hc
    have hnow : ((u.modTimers p fun t => { t with identityWait := none }).port p).modeNow = (s.port p).modeNow := by
      rw [hport, h.port]
      rfl
    have hmode' : z.mode = (s.port p).modeNow := Eq.trans hmode hnow
    have hbegun' : z.trialsBegun = true := hbegun
    have hsteps : ((u.modTimers p fun t => { t with identityWait := none }).beginTrials p).computedSteps false
        (s.port p).modeNow z
        = (u.modTimers p fun t => { t with identityWait := none }).computedSteps false (s.port p).modeNow y :=
      (State.computedSteps_congr hstep.memory hc false _).trans rfl
    rw [hnow, ← hsteps, Session.took_congr (q := s.port p) (by rw [hport, h.port]) (by rw [hport, h.port]),
      show (u.modTimers p fun t => { t with identityWait := none }).grant p = s.grant p from hgrant] at ht
    refine ⟨Asked.of_untouched ((Untouched.refl p u).modTimers fun t => { t with identityWait := none }) (Asked.beginTrials fun c hc' => ?_), hstep.memory,
      hst.trans hstate, ⟨z, hz, (Session.posted_of_core hc).trans rfl⟩, fun _ _ => ⟨?_, hwait⟩, fun _ => ⟨fun hm => ?_, fun _ hp => ?_⟩,
      fun _ hp => absurd hid.2 hp⟩
    · rw [hport] at hc'
      exact hexu c hc'
    · rw [hz]
      simp [hmode', hbegun', ht]
    · simp [Port.marksDue, hid.1, hid.2] at hm
    · rw [hid.2] at hp
      cases hp
  · rw [hstate, hphase, if_neg (by simpa using hid)]
    cases calls with
    | true =>
      rw [if_pos rfl]
      obtain ⟨hst, hses⟩ := State.computationCall_kept hy
      exact ⟨Asked.computationCall hexu, State.memory_computationCall _ _, hst.trans hstate, hses,
        fun h1 h2 => absurd ⟨h1, h2⟩ hid, fun _ => CallMade.of_posted h hw, fun hf => absurd hf (by decide)⟩
    | false =>
      rw [if_neg Bool.false_ne_true]
      exact ⟨(Untouched.refl p u).asked, rfl, hstate, ⟨y, hy, rfl⟩, fun h1 h2 => absurd ⟨h1, h2⟩ hid,
        fun hf => absurd hf (by decide), fun _ _ => rfl⟩

end Sys2Proof.Machine
end

section
/-! Post Identity. -/

namespace Sys2Proof.Machine

variable {s t u : State} {p : PortId} {q : Port} {x y z : Session} {m : ProfileMemory} {k n : SlotId} {e : Entry}
  {i : Identity} {v d r : Half}

/-! ### The command, taken -/

theorem exec_postIdentity_taken (tag : Byte) (hr : s.host.inReset = false)
    (hs : (s.port p).state = .occupied ∨ (s.port p).state = .hold) (hx : (s.port p).session = some x) (v d r : Half) :
    exec (.postIdentity tag (BitVec.ofNat 8 p.val) v d r) s
      = .next ((s.takeIdentity p x ⟨v, d, r⟩).respond (s.postStatus x ⟨v, d, r⟩) tag 0x15
          ((s.takeIdentity p x ⟨v, d, r⟩).identityData p s x ⟨v, d, r⟩)) := by
  rw [exec_postIdentity tag hr]
  have htakes : (s.port p).state.takesIdentity = true := (PortState.takesIdentity_iff _).mpr hs
  rw [htakes, hx]

/-! ### The binding -/

theorem State.bindRequest_groups (s : State) (v d r : Half) {g : GroupId} (hg : g ≠ 8) :
    (s.bindRequest v d r).group g = s.group g := by
  unfold State.bindRequest
  cases s.memory.find v d with
  | some n => rfl
  | none =>
    cases s.memory.room with
    | vacant n => rfl
    | evict n => exact State.group_raise_ne _ _ _ _ hg
    | full => exact State.group_raise_ne _ _ _ _ hg

theorem Posted.raisePort (h : Posted p s u y m) (k : Kind) : Posted p s (u.raisePort p k) y m :=
  ⟨h.port, h.others, h.budget, h.memory⟩

/-- What a binding tells: IDENTITY at a rebind alone, and whatever its bind request told the device group (R104, R108). -/
structure Told8 (p : PortId) (s w u : State) (x : Session) : Prop where
  device : u.group 8 = w.group 8
  bound : x.boundSlot = none →
    (u.group (portGroup p)).pending &&& Kind.identity.mask = (s.group (portGroup p)).pending &&& Kind.identity.mask
  rebound : x.boundSlot.isSome = true → (u.group (portGroup p)).pending &&& Kind.identity.mask ≠ 0

theorem State.postBinding_tells (hb : x.binds i)
    (hw : ((s.toBind p x i).bindSession p x i).group (portGroup p) = s.group (portGroup p)) :
    Told8 p s ((s.toBind p x i).bindSession p x i) (s.postBinding p x i) x := by
  rw [State.postBinding_eq hb]
  cases hbs : x.boundSlot with
  | none => exact ⟨rfl, fun _ => by rw [Option.elim_none, hw], fun h => by simp [hbs] at h⟩
  | some n =>
    exact ⟨State.group_raise_ne _ _ _ _ (portGroup_ne_device p).symm, fun h => by simp [hbs] at h,
      fun _ => pending_raised (raisedIn_raisePort _ p .identity)⟩

theorem State.postBinding_posted_of_bind (hb : x.binds i) (h : Posted p s ((s.toBind p x i).bindSession p x i) y m) :
    Posted p s (s.postBinding p x i) y m := by
  rw [State.postBinding_eq hb]
  cases x.boundSlot with
  | none => exact h
  | some n => exact h.raisePort .identity

/-- A binding answered with a slot (R104, R105, R108). -/
theorem State.postBinding_slot (hx : (s.port p).session = some x) (hb : x.binds ⟨v, d, r⟩)
    (ha : ((s.memoryForBind x).bindAnswer v d).slot = some k)
    (he : ((s.memoryForBind x).bind ⟨v, d, r⟩).entry k = some e) :
    Posted p s (s.postBinding p x ⟨v, d, r⟩) (x.boundTo ⟨v, d, r⟩ k)
        (((s.memoryForBind x).bind ⟨v, d, r⟩).foldAll k (x.foldedInto e))
      ∧ Told8 p s ((s.toBind p x ⟨v, d, r⟩).bindRequest v d r) (s.postBinding p x ⟨v, d, r⟩) x := by
  obtain ⟨h0, hn0⟩ := State.toBind_posted hx ⟨v, d, r⟩
  obtain ⟨h1, hn1⟩ := State.bindSession_posted h0 ha he
  have hgroup : ∀ g, ((s.toBind p x ⟨v, d, r⟩).bindSession p x ⟨v, d, r⟩).group g
      = ((s.toBind p x ⟨v, d, r⟩).bindRequest v d r).group g := fun g =>
    congrArg (fun n : Notices => n.groups[g.val]) hn1
  have hsame : ((s.toBind p x ⟨v, d, r⟩).bindSession p x ⟨v, d, r⟩).group (portGroup p) = s.group (portGroup p) :=
    (hgroup _).trans ((State.bindRequest_groups _ _ _ _ (portGroup_ne_device p)).trans
      (congrArg (fun n : Notices => n.groups[(portGroup p).val]) hn0))
  obtain ⟨g1, g2, g3⟩ := State.postBinding_tells hb hsame
  exact ⟨State.postBinding_posted_of_bind hb h1, g1.trans (hgroup 8), g2, g3⟩

/-- A binding answered FULL (R106, R108). -/
theorem State.postBinding_full (hx : (s.port p).session = some x) (hb : x.binds ⟨v, d, r⟩)
    (hf : (s.memoryForBind x).find v d = none) (hr : (s.memoryForBind x).room = .full) :
    Posted p s (s.postBinding p x ⟨v, d, r⟩) { x with identity := some ⟨v, d, r⟩, boundSlot := none } (s.memoryForBind x)
      ∧ Told8 p s ((s.toBind p x ⟨v, d, r⟩).raiseDevice .pmFull) (s.postBinding p x ⟨v, d, r⟩) x := by
  obtain ⟨h0, hn0⟩ := State.toBind_posted hx ⟨v, d, r⟩
  have heq := State.bindSession_full h0 hf hr
  have hsame : ((s.toBind p x ⟨v, d, r⟩).bindSession p x ⟨v, d, r⟩).group (portGroup p) = s.group (portGroup p) := by
    rw [heq]
    exact (State.group_raise_ne _ _ _ _ (portGroup_ne_device p)).trans
      (congrArg (fun n : Notices => n.groups[(portGroup p).val]) hn0)
  have htells := State.postBinding_tells hb hsame
  rw [heq] at htells
  refine ⟨State.postBinding_posted_of_bind hb ?_, htells⟩
  rw [heq]
  exact ⟨h0.port, h0.others, h0.budget, h0.memory⟩

/-- A confirm works on the entry alone (R107). -/
theorem State.postBinding_confirms (hx : (s.port p).session = some x) (hb : x.boundSlot = some k)
    (hs : x.sameKey i = true) (he : s.entry k = some e) :
    Posted p s (s.postBinding p x i) { x with identity := some i }
        ((s.memory.modEntry k (Entry.releaseChange i.release)).toFront k)
      ∧ (s.postBinding p x i).notices = s.notices := by
  have h := State.setIdentity_posted hx i
  have heq : s.postBinding p x i
      = (s.setIdentity p i).modMemory fun m => (m.modEntry k (Entry.releaseChange i.release)).toFront k := by
    rw [State.postBinding_confirm hb hs]
    exact if_pos (by rw [show (s.setIdentity p i).entry k = s.entry k from rfl, he]; rfl)
  rw [heq]
  exact ⟨⟨h.port, h.others, h.budget, rfl⟩, rfl⟩

theorem ProfileMemory.room_of_full (ha : (m.bindAnswer v d).slot = none) : m.find v d = none ∧ m.room = .full := by
  unfold ProfileMemory.bindAnswer at ha
  cases hf : m.find v d with
  | some n => simp [hf, BindAnswer.slot] at ha
  | none => cases hr : m.room <;> simp [hf, hr, BindAnswer.slot] at ha ⊢

/-- Whatever a Post Identity is, it writes the session's record and leaves the walk as it stands. -/
theorem State.postBinding_posted (hx : (s.port p).session = some x) (v d r : Half) :
    ∃ y m, Posted p s (s.postBinding p x ⟨v, d, r⟩) y m ∧ x.sameWalk y ∧ y.identity = some ⟨v, d, r⟩ ∧ y.number = x.number := by
  by_cases hb : x.binds ⟨v, d, r⟩
  · cases ha : ((s.memoryForBind x).bindAnswer v d).slot with
    | some k =>
      obtain ⟨⟨e, he, -⟩, -⟩ := ProfileMemory.bind_slots (i := ⟨v, d, r⟩) ha
      exact ⟨_, _, (State.postBinding_slot hx hb ha he).1, ⟨rfl, rfl, rfl, rfl, rfl⟩, rfl, rfl⟩
    | none =>
      have hfull := ProfileMemory.room_of_full ha
      exact ⟨_, _, (State.postBinding_full hx hb hfull.1 hfull.2).1, ⟨rfl, rfl, rfl, rfl, rfl⟩, rfl, rfl⟩
  · obtain ⟨hbound, hs⟩ := not_or.mp hb
    obtain ⟨k, hk⟩ := Option.ne_none_iff_exists'.mp hbound
    have h := State.setIdentity_posted hx ⟨v, d, r⟩
    rw [State.postBinding_confirm hk (by simpa using hs)]
    unfold State.confirmRequest
    split
    · exact ⟨_, _, ⟨h.port, h.others, h.budget, rfl⟩, ⟨rfl, rfl, rfl, rfl, rfl⟩, rfl, rfl⟩
    · exact ⟨_, _, h, ⟨rfl, rfl, rfl, rfl, rfl⟩, rfl, rfl⟩

/-! ### The response -/

/-- A session whose held phase is set exactly in HOLD (R38). -/
def Port.holds (q : Port) (z : Session) : Prop :=
  (q.state = .occupied ∧ z.held = none) ∨ (q.state = .hold ∧ z.held.isSome = true)

theorem Port.sessionLaw.holds (h : q.sessionLaw) (hx : q.session = some x)
    (hs : q.state = .occupied ∨ q.state = .hold) : q.holds x := by
  unfold Port.sessionLaw at h
  rw [hx] at h
  rcases hs with hs | hs
  · rw [hs] at h
    exact Or.inl ⟨hs, h.2⟩
  · rw [hs] at h
    exact Or.inr ⟨hs, h.2⟩

/-- The held bit and the phase of the response are those of the port's state (R41, R109). -/
theorem postBytes_eq (hz : (t.port p).session = some z) (hh : (t.port p).holds z) (o f : Nat) (rebound release : Bool) :
    halfBytes x.number ++ [byteOf o, slotCode ((t.port p).session.bind (·.boundSlot)),
      byteOf (bitAt rebound 0 + bitAt release 1 + bitAt ((t.port p).session.any (·.held.isSome)) 2), byteOf f,
      phaseCode ((t.port p).session.bind (·.shownPhase))]
    = t.postBytes p x (byteOf o) (slotCode z.boundSlot) rebound release f := by
  unfold State.postBytes State.heldPhase State.phase
  rw [hz]
  rcases hh with ⟨hs, hheld⟩ | ⟨hs, hheld⟩
  · rw [hs]
    simp [hheld, Session.shownPhase, bitAt, halfBytes, byteOf]
  · rw [hs]
    obtain ⟨h, hh⟩ := Option.isSome_iff_exists.mp hheld
    simp [hh, Session.shownPhase, bitAt, halfBytes, byteOf]

theorem State.identityData_confirm (hk : x.postKind i = .confirm k) (hz : (t.port p).session = some z)
    (hh : (t.port p).holds z) (s : State) :
    t.identityData p s x i = t.postBytes p x 3 (slotCode z.boundSlot) false (s.memory.releaseDiffers k i.release) 0 := by
  have hrelease : s.postReleaseChange x i = s.memory.releaseDiffers k i.release := by
    unfold State.postReleaseChange
    rw [hk]
  unfold State.identityData
  dsimp only
  rw [hk, hrelease]
  exact postBytes_eq hz hh 3 0 false _

theorem State.identityData_found (hb : x.binds i) (ha : s.postAnswer x i = .found k) (he : s.entry k = some e)
    (hz : (t.port p).session = some z) (hh : (t.port p).holds z) :
    t.identityData p s x i = t.postBytes p x 1 (slotCode z.boundSlot) x.boundSlot.isSome (e.release != i.release)
      (if e.pinned.isSome then 0 else x.pendingVerdicts.length) := by
  have hdiffers : s.memory.releaseDiffers k i.release = (e.release != i.release) := by
    unfold ProfileMemory.releaseDiffers
    rw [show s.memory.entry k = some e from he]
    rfl
  have hrelease : s.postReleaseChange x i = (e.release != i.release) := by
    unfold State.postReleaseChange
    rw [Session.postKind_of_binds hb, ha, ← hdiffers]
    cases x.boundSlot <;> rfl
  have hfolded : (if (s.entry k).any (fun e => e.pinned.isNone) then x.toHandOver else 0)
      = if e.pinned.isSome then 0 else x.pendingVerdicts.length := by
    rw [he, x.toHandOver_eq]
    cases hp : e.pinned <;> simp [hp]
  have h := postBytes_eq (x := x) hz hh 1 (if e.pinned.isSome then 0 else x.pendingVerdicts.length) x.boundSlot.isSome
    (e.release != i.release)
  rw [← hfolded, ← hrelease] at h
  unfold State.identityData
  dsimp only
  rw [Session.postKind_of_binds hb, ha]
  rw [← hrelease, ← hfolded]
  cases hbs : x.boundSlot <;> rw [hbs] at h <;> exact h

theorem State.identityData_new (hb : x.binds i) (hz : (t.port p).session = some z) (hh : (t.port p).holds z) :
    (s.postAnswer x i = .inserted k → t.identityData p s x i
        = t.postBytes p x 2 (slotCode z.boundSlot) x.boundSlot.isSome false x.pendingVerdicts.length)
    ∧ (s.postAnswer x i = .full → t.identityData p s x i
        = t.postBytes p x 0 (slotCode z.boundSlot) x.boundSlot.isSome false 0) := by
  have hno : (s.postAnswer x i = .inserted k ∨ s.postAnswer x i = .full) → s.postReleaseChange x i = false := fun ha => by
    unfold State.postReleaseChange
    rw [Session.postKind_of_binds hb]
    rcases ha with ha | ha <;> rw [ha] <;> cases x.boundSlot <;> rfl
  refine ⟨fun ha => ?_, fun ha => ?_⟩
  · have h := postBytes_eq (x := x) hz hh 2 x.toHandOver x.boundSlot.isSome false
    unfold State.identityData
    dsimp only
    rw [Session.postKind_of_binds hb, ha, hno (Or.inl ha), ← x.toHandOver_eq]
    cases hbs : x.boundSlot <;> rw [hbs] at h <;> exact h
  · have h := postBytes_eq (x := x) hz hh 0 0 x.boundSlot.isSome false
    unfold State.identityData
    dsimp only
    rw [Session.postKind_of_binds hb, ha, hno (Or.inr ha)]
    cases hbs : x.boundSlot <;> rw [hbs] at h <;> exact h

theorem State.postStatus_binds (hb : x.binds i) (s : State) :
    s.postStatus x i = if s.postAnswer x i = .full then .full else .ok := by
  unfold State.postStatus
  rw [Session.postKind_of_binds hb]
  cases x.boundSlot <;> rfl

end Sys2Proof.Machine
end

section
/-! Post Identity, as one statement. -/

namespace Sys2Proof.Machine

variable {s t u w : State} {p : PortId} {q : Port} {x y z : Session} {m : ProfileMemory} {k n : SlotId} {e : Entry}
  {i : Identity} {v d r : Half} {calls : Bool}

/-! ### The memory a bind request meets -/

theorem State.memoryForBind_unbind (s : State) (x : Session) :
    s.memoryForBind x = s.memory.unbind x.boundSlot := by
  unfold State.memoryForBind
  cases x.boundSlot <;> rfl

theorem State.memoryForBind_order (s : State) (x : Session) :
    (s.memoryForBind x).recency = s.memory.recency ∧ (s.memoryForBind x).orderCount = s.memory.orderCount := by
  unfold State.memoryForBind
  cases x.boundSlot <;> exact ⟨rfl, rfl⟩

/-- Giving up the old entry changes its users alone (R88, R108). -/
theorem State.memoryForBind_entry (s : State) (x : Session) (n : SlotId) :
    ((s.memoryForBind x).entry n).map (fun e => { e with users := 0 }) = (s.entry n).map fun e => { e with users := 0 } := by
  unfold State.memoryForBind
  cases x.boundSlot with
  | none => rfl
  | some j =>
    by_cases hn : n = j
    · subst hn
      dsimp only
      rw [ProfileMemory.entry_modEntry_same, Option.map_map]
      rfl
    · dsimp only
      rw [ProfileMemory.entry_modEntry_ne _ _ _ _ hn]
      rfl

theorem State.memoryForBind_isSome (s : State) (x : Session) (n : SlotId) :
    ((s.memoryForBind x).entry n).isSome = (s.entry n).isSome := by
  have h := congrArg Option.isSome (s.memoryForBind_entry x n)
  rwa [Option.isSome_map, Option.isSome_map] at h

theorem State.memoryForBind_some (he : (s.memoryForBind x).entry k = some e) :
    ∃ o, s.entry k = some o ∧ o.release = e.release ∧ o.pinned = e.pinned := by
  have h := s.memoryForBind_entry x k
  rw [he] at h
  obtain ⟨o, ho, heq⟩ := Option.map_eq_some_iff.mp h.symm
  have h1 := congrArg Entry.release heq
  have h2 := congrArg Entry.pinned heq
  exact ⟨o, ho, h1, h2⟩

/-! ### What the memory holds after a binding -/

/-- A bind that finds its key, with its hand-over (R79, R87, R105). -/
theorem State.memory_found (hf : (s.memoryForBind x).find v d = some k) (he : (s.memoryForBind x).entry k = some e)
    (ht : t.memory = ((s.memoryForBind x).bind ⟨v, d, r⟩).foldAll k
      (x.foldedInto { e.releaseChange r with users := e.users + 1 })) :
    t.entry k = some { e with
        release := r, users := e.users + 1,
        tallies := (if e.release = r then e.tallies else e.tallies.halve).foldAll
          (if e.pinned.isSome then [] else x.pendingVerdicts) }
      ∧ (∀ n, n ≠ k → t.entry n = (s.memoryForBind x).entry n)
      ∧ t.memory.recency = k :: (s.memory.recency.filter fun n => n ≠ k)
      ∧ t.memory.orderCount
          = (if t.memory.recency = s.memory.recency then s.memory.orderCount else s.memory.orderCount + 1) := by
  obtain ⟨-, hfront, hent, hothers, hrec, hord⟩ := ProfileMemory.bind_found (r := r) hf he
  obtain ⟨h1, h2, h3, h4⟩ :=
    ProfileMemory.foldAll_atFront (x.foldedInto { e.releaseChange r with users := e.users + 1 }) hent hfront
  obtain ⟨o1, o2⟩ := s.memoryForBind_order x
  rw [o1] at hrec hord
  rw [o2] at hord
  refine ⟨?_, fun n hn => ?_, ?_, ?_⟩
  · refine (congrArg (fun m : ProfileMemory => m.entry k) ht).trans (h1.trans ?_)
    unfold Entry.releaseChange Session.foldedInto
    by_cases hr : e.release = r
    · subst hr
      simp
    · simp [hr]
  · exact (congrArg (fun m : ProfileMemory => m.entry n) ht).trans ((h2 n hn).trans (hothers n hn))
  · rw [ht, h3, hrec]
  · rw [ht, h4, h3, hord]

/-- A bind that inserts its key, with its hand-over (R83 to R86, R105). -/
theorem State.memory_new (hf : (s.memoryForBind x).find v d = none)
    (hk : (s.memoryForBind x).room = .vacant k ∨ (s.memoryForBind x).room = .evict k)
    (ht : t.memory = ((s.memoryForBind x).bind ⟨v, d, r⟩).foldAll k (x.foldedInto (Entry.fresh v d r))) :
    t.entry k = some {
        vendor := v, product := d, release := r, pinned := none, users := 1,
        tallies := Tallies.zero.foldAll x.pendingVerdicts }
      ∧ (∀ n, n ≠ k → t.entry n = (s.memoryForBind x).entry n)
      ∧ t.memory.recency = k :: (s.memory.recency.filter fun n => n ≠ k)
      ∧ t.memory.orderCount = s.memory.orderCount + 1 := by
  obtain ⟨-, hfront, hent, hothers, hrec, hord⟩ := ProfileMemory.bind_new (r := r) hf hk
  obtain ⟨h1, h2, h3, h4⟩ := ProfileMemory.foldAll_atFront (x.foldedInto (Entry.fresh v d r)) hent hfront
  obtain ⟨o1, o2⟩ := s.memoryForBind_order x
  rw [o1] at hrec
  rw [o2] at hord
  refine ⟨(congrArg (fun m : ProfileMemory => m.entry k) ht).trans (h1.trans rfl), fun n hn => ?_, ?_, ?_⟩
  · exact (congrArg (fun m : ProfileMemory => m.entry n) ht).trans ((h2 n hn).trans (hothers n hn))
  · rw [ht, h3, hrec]
  · rw [ht, h4, hord]

/-! ### The binding and its call together -/

/-- What a Post Identity shows of its binding, once it has acted on the trials. -/
theorem Acted.shown (h : Acted p s u t x y calls) (hh : (s.port p).holds x)
    (hheld : y.held = x.held) :
    ∃ z, (t.port p).session = some z ∧ (t.port p).holds z ∧ z.number = y.number ∧ z.identity = y.identity
      ∧ z.boundSlot = y.boundSlot ∧ z.verdicts = y.verdicts := by
  obtain ⟨z, hz, hpost⟩ := h.session
  have h1 := congrArg (fun a => a.1) hpost
  have h2 := congrArg (fun a => a.2.1) hpost
  have h3 := congrArg (fun a => a.2.2.1) hpost
  have h4 := congrArg (fun a => a.2.2.2.1) hpost
  have h5 := congrArg (fun a => a.2.2.2.2) hpost
  refine ⟨z, hz, ?_, h1, h2, h3, h4⟩
  have hzheld : z.held = x.held := Eq.trans h5 hheld
  unfold Port.holds
  rw [h.state, hzheld]
  exact hh

/-- The identity mark of the port's group after a Post Identity that binds (R108). -/
theorem Acted.identityPending (h : Acted p s u t x y calls) (ht : Told8 p s w u x) :
    (x.boundSlot = none →
      (t.group (portGroup p)).pending &&& Kind.identity.mask = (s.group (portGroup p)).pending &&& Kind.identity.mask)
    ∧ (x.boundSlot.isSome = true → (t.group (portGroup p)).pending &&& Kind.identity.mask ≠ 0) := by
  refine ⟨fun hb => h.asked.identity.trans (ht.bound hb), fun hb => ?_⟩
  rw [h.asked.identity]
  exact ht.rebound hb

theorem Acted.device (h : Acted p s u t x y calls) : t.group 8 = u.group 8 :=
  h.asked.groups 8 (portGroup_ne_device p).symm

/-- The IDENTITY mark, whatever a Post Identity that binds was answered. -/
theorem State.postBinding_told8 (hx : (s.port p).session = some x) (hb : x.binds ⟨v, d, r⟩) :
    ∃ w, Told8 p s w (s.postBinding p x ⟨v, d, r⟩) x := by
  cases ha : ((s.memoryForBind x).bindAnswer v d).slot with
  | some k =>
    obtain ⟨⟨e, he, -⟩, -⟩ := ProfileMemory.bind_slots (i := ⟨v, d, r⟩) ha
    exact ⟨_, (State.postBinding_slot hx hb ha he).2⟩
  | none =>
    obtain ⟨hf, hr⟩ := ProfileMemory.room_of_full ha
    exact ⟨_, (State.postBinding_full hx hb hf hr).2⟩

end Sys2Proof.Machine
end

section
/-! The statement about Post Identity. -/

namespace Sys2Proof.Machine

variable {s t u w : State} {p : PortId} {x y z : Session} {k : SlotId} {e : Entry} {i : Identity} {v d r : Half}
  {calls : Bool}

theorem Session.binds_of (h : x.boundSlot = none ∨ (x.identity.all fun j => !(j.vendor == i.vendor && j.product == i.product)) = true) :
    x.binds i := by
  refine h.imp id fun h => ?_
  unfold Session.sameKey
  cases hi : x.identity with
  | none => rfl
  | some j =>
    rw [hi] at h
    simpa [imp_iff_not_or] using h

/-- The answer to the bind request, by what the memory holds of the key (R87, R109). -/
theorem State.postAnswer_eq (hb : x.binds i) (s : State) :
    s.postAnswer x i = (s.memoryForBind x).bindAnswer i.vendor i.product := by
  unfold State.postAnswer
  rw [State.memoryAtBind_eq hb]

/-- A confirm (R107, R109). -/
theorem State.takeIdentity_confirms (hx : (s.port p).session = some x) (hh : (s.port p).holds x)
    (hex : (s.port p).exactLaw (s.grant p)) (hb : x.boundSlot = some k) (hs : x.sameKey ⟨v, d, r⟩ = true)
    (he : s.entry k = some e) (ht : s.takeIdentity p x ⟨v, d, r⟩ = t) :
    ((t.port p).session.any fun y => y.boundSlot == some k && y.verdicts == x.verdicts) = true
      ∧ t.entry k = some (if e.release = r then e else { e with release := r, tallies := e.tallies.halve })
      ∧ (∀ n, n ≠ k → t.entry n = s.entry n) ∧ t.memory.recency = k :: (s.memory.recency.filter fun n => n ≠ k)
      ∧ t.memory.orderCount
          = (if t.memory.recency = s.memory.recency then s.memory.orderCount else s.memory.orderCount + 1)
      ∧ t.group 8 = s.group 8
      ∧ (t.group (portGroup p)).pending &&& Kind.identity.mask = (s.group (portGroup p)).pending &&& Kind.identity.mask
      ∧ t.identityData p s x ⟨v, d, r⟩ = t.postBytes p x 3 (BitVec.ofNat 8 k.val) false (e.release != r) 0
      ∧ (e.release = r → x.phase ≠ some .identifying →
          t.port p = { s.port p with session := some { x with identity := some ⟨v, d, r⟩ } }
            ∧ t.budget = s.budget ∧ t.notices = s.notices)
      ∧ (e.release ≠ r → CallMade s t p x) := by
  obtain ⟨hpost, hnotices⟩ := State.postBinding_confirms (i := ⟨v, d, r⟩) hx hb hs he
  have hact := State.postActs_acted hpost ⟨rfl, rfl, rfl, rfl, rfl⟩ hex (s.postCalls x ⟨v, d, r⟩)
  have hkind := Session.postKind_confirm hb hs
  have hdiffers : s.memory.releaseDiffers k r = (e.release != r) := by
    unfold ProfileMemory.releaseDiffers
    rw [show s.memory.entry k = some e from he]
    rfl
  have hcalls : s.postCalls x ⟨v, d, r⟩ = (e.release != r) := by
    unfold State.postCalls State.postReleaseChange
    rw [hkind, ← hdiffers]
  rw [State.takeIdentity] at ht
  rw [ht] at hact
  obtain ⟨z, hz, hholds, -, -, hslot, hver⟩ := hact.shown hh rfl
  have hslot' : z.boundSlot = some k := hslot.trans hb
  have hver' : z.verdicts = x.verdicts := hver
  have hmem := hact.memory.trans hpost.memory
  have hgroup : ∀ g, (s.postBinding p x ⟨v, d, r⟩).group g = s.group g := fun g =>
    congrArg (fun n : Notices => n.groups[g.val]) hnotices
  refine ⟨by rw [hz]; simp [hslot', hver'], ?_, fun n hn => ?_, ?_, ?_, hact.device.trans (hgroup 8), ?_, ?_, fun hsame hph => ?_,
    fun hne => hact.called (by rw [hcalls]; simpa using hne)⟩
  · refine (congrArg (fun m : ProfileMemory => m.entry k) hmem).trans ?_
    rw [ProfileMemory.entry_toFront, ProfileMemory.entry_modEntry_same, show s.memory.entry k = some e from he]
    rfl
  · refine (congrArg (fun m : ProfileMemory => m.entry n) hmem).trans ?_
    rw [ProfileMemory.entry_toFront, ProfileMemory.entry_modEntry_ne _ _ _ _ hn]
    rfl
  · rw [hmem, ProfileMemory.recency_toFront]
    rfl
  · rw [hmem]
    exact ProfileMemory.orderCount_modEntry_toFront _ _ _
  · rw [hact.asked.identity, hgroup]
  · rw [State.identityData_confirm hkind hz hholds, hdiffers, hslot']
    rfl
  · have hidle := hact.idle (by rw [hcalls]; simpa using hsame) hph
    rw [hidle]
    exact ⟨hpost.port, hpost.budget, hnotices⟩

/-- A bind or rebind answered with a slot: the session, the notices and the call (R104, R105, R108, R110). -/
structure BoundTo (p : PortId) (s t : State) (x : Session) (k : SlotId) (z : Session) : Prop where
  session : (t.port p).session = some z
  holds : (t.port p).holds z
  slot : z.boundSlot = some k
  verdicts : z.verdicts = x.verdictsFolded
  called : CallMade s t p x

/-- What a bind answered with a slot leaves (R104, R105, R108). -/
theorem State.takeIdentity_binds (hx : (s.port p).session = some x) (hh : (s.port p).holds x)
    (hex : (s.port p).exactLaw (s.grant p)) (hb : x.binds ⟨v, d, r⟩)
    (ha : ((s.memoryForBind x).bindAnswer v d).slot = some k)
    (he : ((s.memoryForBind x).bind ⟨v, d, r⟩).entry k = some e) (ht : s.takeIdentity p x ⟨v, d, r⟩ = t) :
    (∃ z, BoundTo p s t x k z)
      ∧ t.memory = ((s.memoryForBind x).bind ⟨v, d, r⟩).foldAll k (x.foldedInto e)
      ∧ t.group 8 = ((s.toBind p x ⟨v, d, r⟩).bindRequest v d r).group 8 := by
  obtain ⟨hpost, htold⟩ := State.postBinding_slot hx hb ha he
  have hact := State.postActs_acted hpost ⟨rfl, rfl, rfl, rfl, rfl⟩ hex (s.postCalls x ⟨v, d, r⟩)
  have hcalls : s.postCalls x ⟨v, d, r⟩ = true := by
    rw [State.postCalls_binds hb, State.postAnswer_eq hb]
    cases hans : (s.memoryForBind x).bindAnswer v d with
    | full => simp [hans, BindAnswer.slot] at ha
    | _ => simp
  rw [State.takeIdentity] at ht
  rw [ht] at hact
  obtain ⟨z, hz, hholds, -, -, hslot, hver⟩ := hact.shown hh rfl
  exact ⟨⟨z, hz, hholds, hslot, hver, hact.called hcalls⟩, hact.memory.trans hpost.memory, hact.device.trans htold.device⟩

theorem BoundTo.record (h : BoundTo p s t x k z) :
    ((t.port p).session.any fun y => y.boundSlot == some k && y.verdicts == x.verdictsFolded) = true := by
  rw [h.session]
  simp [h.slot, h.verdicts]

/-- Settles O28: a Post Identity writes the identity, confirms, binds or rebinds the session, and acts on its trials. -/
theorem postIdentityBindsTheSession : Obligations.PostIdentityBindsTheSession := by
  unfold Obligations.PostIdentityBindsTheSession
  intro s tag p v d r k hr hm hsl hexact hs x hx
  have run := exec_postIdentity_taken tag hr hs hx v d r
  have hh := (hsl p).holds hx hs
  obtain ⟨y, m, hpost, hwalk, hident, hnum⟩ := State.postBinding_posted hx v d r
  have hact := State.postActs_acted hpost hwalk (hexact p) (s.postCalls x ⟨v, d, r⟩)
  have hacts := ((Acts.refl p s).takeIdentity x ⟨v, d, r⟩).othersKept
  generalize ht : s.takeIdentity p x ⟨v, d, r⟩ = t at run hacts
  have ht' : (s.postBinding p x ⟨v, d, r⟩).postActs p (s.postCalls x ⟨v, d, r⟩) = t := ht
  rw [ht'] at hact
  obtain ⟨z, hz, hholds, hznum, hzident, -⟩ := hact.shown hh hwalk.2.1
  have hznum' : z.number = x.number := hznum.trans hnum
  have hzident' : z.identity = some ⟨v, d, r⟩ := hzident.trans hident
  refine ⟨_, run, hacts.respond _ _ _ _, fun q hq => ⟨(hact.asked.ports q hq).trans (hpost.others q hq), ?grants⟩, hact.state,
    ?record, fun hp => hact.identifying ?occupied hp, fun hb hkey e he => ?confirm, fun hbinds => ⟨fun hb => ?unbound,
    fun hb => ?rebound, fun e he hv hd => ?found, fun habsent => ⟨fun hroom => ?new, fun hfull => ?full⟩⟩⟩
  case grants =>
    exact (hact.asked.grant_ne hq).trans (congrArg (fun b : Budget => b.grants[q.val]) hpost.budget)
  case record =>
    rw [State.port_respond, hz]
    simp [hznum', hzident']
  case occupied =>
    refine hs.resolve_right fun hold => ?_
    have hlaw := hsl p
    unfold Port.sessionLaw at hlaw
    rw [hold, hx] at hlaw
    rw [hlaw.1] at hp
    cases hp
  case confirm =>
    obtain ⟨h1, h2, h3, h4, h5, h6, h7, h8, h9, h10⟩ := State.takeIdentity_confirms hx hh (hexact p) hb hkey he ht
    refine ⟨h1, h2, h3, h4, h5, h6, h7, ?_, h9, h10⟩
    have hst : s.postStatus x ⟨v, d, r⟩ = .ok := by
      unfold State.postStatus
      rw [Session.postKind_confirm (i := ⟨v, d, r⟩) hb hkey]
    rw [hst, h8]
    exact replied_respond _ _ _ _ _
  case unbound =>
    obtain ⟨w, hw⟩ := State.postBinding_told8 (v := v) (d := d) (r := r) hx (Or.inl hb)
    exact (hact.identityPending hw).1 hb
  case rebound =>
    obtain ⟨w, hw⟩ := State.postBinding_told8 hx (Session.binds_of (i := ⟨v, d, r⟩) hbinds)
    exact (hact.identityPending hw).2 hb
  case found =>
    subst hv hd
    have hb := Session.binds_of (i := ⟨e.vendor, e.product, r⟩) hbinds
    have hlaw : (s.memoryForBind x).law := by
      rw [State.memoryForBind_unbind]
      exact ProfileMemory.law_unbind hm _
    have hf : (s.memoryForBind x).find e.vendor e.product = some k := ProfileMemory.find_eq hlaw he
    obtain ⟨hans, -, hent, -⟩ := ProfileMemory.bind_found (r := r) hf he
    obtain ⟨⟨y, hy⟩, hmem, hdev⟩ := State.takeIdentity_binds hx hh (hexact p) hb (by rw [hans]; rfl) hent ht
    obtain ⟨h1, h2, h3, h4⟩ := State.memory_found hf he hmem
    obtain ⟨hbound, hn⟩ := State.toBind_posted hx ⟨e.vendor, e.product, r⟩
    have hquiet := (State.notices_bindRequest (s.toBind p x ⟨e.vendor, e.product, r⟩) e.vendor e.product r).1 k
      (by rw [hbound.memory]; exact hf)
    obtain ⟨o, ho, hrel, hpin⟩ := State.memoryForBind_some he
    have ha : s.postAnswer x ⟨e.vendor, e.product, r⟩ = .found k := (State.postAnswer_eq hb s).trans hans
    refine ⟨hy.record, h1, h2, h3, h4, ?_, ?_, hy.called⟩
    · exact hdev.trans (congrArg (fun n : Notices => n.groups[8]) (hquiet.trans hn))
    · have hst : s.postStatus x ⟨e.vendor, e.product, r⟩ = .ok := by
        rw [State.postStatus_binds hb, ha]
        rfl
      rw [hst, State.identityData_found hb ha ho hy.session hy.holds, hy.slot, hrel, hpin]
      exact replied_respond _ _ _ _ _
  case new =>
    have hb := Session.binds_of (i := ⟨v, d, r⟩) hbinds
    have hf : (s.memoryForBind x).find v d = none := ProfileMemory.find_eq_none habsent
    obtain ⟨hbound, hn⟩ := State.toBind_posted hx ⟨v, d, r⟩
    have hnotices := (State.notices_bindRequest (s.toBind p x ⟨v, d, r⟩) v d r).2 (by rw [hbound.memory]; exact hf)
    rw [hbound.memory] at hnotices
    have hrooms : ((s.memoryForBind x).room = .vacant k ∧ s.entry k = none)
        ∨ ((s.memoryForBind x).room = .evict k ∧ (s.entry k).isSome = true) := by
      unfold ProfileMemory.room
      rcases hroom with ⟨hk, hlow⟩ | ⟨hall, hev⟩
      · refine Or.inl ⟨?_, hk⟩
        rw [ProfileMemory.vacant_eq (k := k)]
        · have h := s.memoryForBind_isSome x k
          rw [hk] at h
          exact Option.isNone_iff_eq_none.mp (by simpa using h)
        · exact fun n hlt => (s.memoryForBind_isSome x n).trans (hlow n hlt)
      · refine Or.inr ⟨?_, hall k⟩
        rw [ProfileMemory.vacant_eq_none fun n => (s.memoryForBind_isSome x n).trans (hall n)]
        have hevict : (s.memoryForBind x).evictable = some k := by
          unfold ProfileMemory.evictable
          rw [(s.memoryForBind_order x).1]
          exact hev
        rw [hevict]
    have hroom' : (s.memoryForBind x).room = .vacant k ∨ (s.memoryForBind x).room = .evict k :=
      hrooms.imp (·.1) (·.1)
    obtain ⟨hans, -, hent, -⟩ := ProfileMemory.bind_new (r := r) hf hroom'
    obtain ⟨⟨y, hy⟩, hmem, hdev⟩ := State.takeIdentity_binds hx hh (hexact p) hb (by rw [hans]; rfl) hent ht
    obtain ⟨h1, h2, h3, h4⟩ := State.memory_new hf hroom' hmem
    have ha : s.postAnswer x ⟨v, d, r⟩ = .inserted k := (State.postAnswer_eq hb s).trans hans
    have hgroup : (s.toBind p x ⟨v, d, r⟩).group 8 = s.group 8 := congrArg (fun n : Notices => n.groups[8]) hn
    refine ⟨hy.record, h1, h2, h3, h4, ?_, ?_, hy.called⟩
    · rcases hrooms with ⟨hvac, hnone⟩ | ⟨hevict, hsome⟩
      · rw [hnone, if_neg (by simp)]
        exact hdev.trans ((congrArg (fun n : Notices => n.groups[8]) (hnotices.1 k hvac)).trans hgroup)
      · rw [if_pos hsome]
        have htells : ((s.toBind p x ⟨v, d, r⟩).bindRequest v d r).group 8
            = ((s.toBind p x ⟨v, d, r⟩).raiseDevice .pmEvict).group 8 :=
          congrArg (fun n : Notices => n.groups[8]) (hnotices.2.1 k hevict)
        exact (raised_device _ .pmEvict).1.congr hgroup.symm (hdev.trans htells)
    · have hst : s.postStatus x ⟨v, d, r⟩ = .ok := by
        rw [State.postStatus_binds hb, ha]
        rfl
      rw [hst, (State.identityData_new hb hy.session hy.holds).1 ha, hy.slot]
      exact replied_respond _ _ _ _ _
  case full =>
    have hb := Session.binds_of (i := ⟨v, d, r⟩) hbinds
    have hf : (s.memoryForBind x).find v d = none := ProfileMemory.find_eq_none habsent
    have hroom : (s.memoryForBind x).room = .full := by
      have hsome : ∀ n, ((s.memoryForBind x).entry n).isSome = true := fun n => by
        have h := hfull n
        cases he : (s.memoryForBind x).entry n with
        | none => rw [he] at h; cases h
        | some e => rfl
      have hevict : (s.memoryForBind x).evictable = none := by
        refine List.find?_eq_none.mpr fun n _ => ?_
        have h := hfull n
        cases he : (s.memoryForBind x).entry n with
        | none => simp
        | some e =>
          rw [he] at h
          rcases (by simpa using h : e.pinned.isSome = true ∨ 0 < e.users) with h | h
          · simp [Option.isNone_eq_false_iff.mpr h]
          · simp [Nat.ne_of_gt h]
      unfold ProfileMemory.room
      rw [ProfileMemory.vacant_eq_none hsome, hevict]
    obtain ⟨hpost, htold⟩ := State.postBinding_full (r := r) hx hb hf hroom
    have hact := State.postActs_acted hpost ⟨rfl, rfl, rfl, rfl, rfl⟩ (hexact p) (s.postCalls x ⟨v, d, r⟩)
    rw [ht'] at hact
    obtain ⟨y, hy, hholds, -, -, hslot, hver⟩ := hact.shown hh rfl
    have hslot' : y.boundSlot = none := hslot
    have hver' : y.verdicts = x.verdicts := hver
    have ha : s.postAnswer x ⟨v, d, r⟩ = .full := by
      rw [State.postAnswer_eq hb]
      unfold ProfileMemory.bindAnswer
      rw [hf, hroom]
    have hgroup : (s.toBind p x ⟨v, d, r⟩).group 8 = s.group 8 :=
      congrArg (fun n : Notices => n.groups[8]) (State.toBind_posted hx ⟨v, d, r⟩).2
    refine ⟨?_, hact.memory.trans hpost.memory, ?_, ?_, fun hsome => hact.called ?_⟩
    · rw [State.port_respond, hy]
      simp [hslot', hver']
    · exact (raised_device _ .pmFull).1.congr hgroup.symm (hact.device.trans htold.device)
    · have hst : s.postStatus x ⟨v, d, r⟩ = .full := by
        rw [State.postStatus_binds hb, ha]
        rfl
      rw [hst, (State.identityData_new (k := k) hb hy hholds).2 ha, hslot']
      exact replied_respond _ _ _ _ _
    · rw [State.postCalls_binds hb, hsome]
      rfl

end Sys2Proof.Machine
end

section
/-! Set Policy: the checks of a record and the record it gives. -/

namespace Sys2Proof.Machine

variable {s t : State} {p : PortId} {b : Byte} {g : Sig} {r : PolicyBytes} {n : Policy} {l : List Byte} {gs : List Sig}

/-! ### Codes -/

theorem sigOf_eq_some : sigOf b = some g ↔ g.rank = b.toNat := by
  constructor
  · intro h
    unfold sigOf at h
    split at h <;> first | (cases h; exact Eq.symm (by assumption)) | cases h
  · intro h
    have hb : b = BitVec.ofNat 8 g.rank := by rw [h, BitVec.ofNat_toNat, BitVec.setWidth_eq]
    rw [hb, sigOf_rank]

theorem Sig.rank_bounds (g : Sig) : 1 ≤ g.rank ∧ g.rank ≤ 6 := by cases g <;> decide

theorem Sig.rank_inj {g h : Sig} (e : g.rank = h.rank) : g = h := by
  have hs := sigOf_rank g
  rw [e, sigOf_rank] at hs
  exact (Option.some.inj hs).symm

theorem sigOf_of_bounds (h : 1 ≤ b.toNat ∧ b.toNat ≤ 6) : ∃ g, sigOf b = some g := by
  have hb : ∃ g : Sig, g.rank = b.toNat := by
    obtain h | h | h | h | h | h : b.toNat = 1 ∨ b.toNat = 2 ∨ b.toNat = 3 ∨ b.toNat = 4 ∨ b.toNat = 5 ∨ b.toNat = 6 := by
      omega
    · exact ⟨.P, h.symm⟩
    · exact ⟨.L, h.symm⟩
    · exact ⟨.A, h.symm⟩
    · exact ⟨.B, h.symm⟩
    · exact ⟨.H, h.symm⟩
    · exact ⟨.F, h.symm⟩
  obtain ⟨g, hg⟩ := hb
  exact ⟨g, sigOf_eq_some.mpr hg⟩

theorem yesNoOf_eq_some {f : Bool} : yesNoOf b = some f ↔ b = yesNo f := by
  constructor
  · intro h
    have hb : b.toNat = (yesNo f).toNat := by
      unfold yesNoOf at h
      split at h <;> first | (cases h; assumption) | cases h
    exact BitVec.eq_of_toNat_eq hb
  · rintro rfl
    exact yesNoOf_yesNo f

theorem yesNoOf_of_le (h : b.toNat ≤ 1) : ∃ f, yesNoOf b = some f := by
  obtain h | h : b.toNat = 0 ∨ b.toNat = 1 := by omega
  · exact ⟨false, yesNoOf_eq_some.mpr (BitVec.eq_of_toNat_eq h)⟩
  · exact ⟨true, yesNoOf_eq_some.mpr (BitVec.eq_of_toNat_eq h)⟩

theorem yesNo_le (f : Bool) : (yesNo f).toNat ≤ 1 := by cases f <;> decide

theorem sigsOf_cons_eq_some : sigsOf (b :: l) = some gs ↔ ∃ g hs, sigOf b = some g ∧ sigsOf l = some hs ∧ gs = g :: hs := by
  rw [sigsOf]
  cases sigOf b with
  | none => simp
  | some g =>
    cases sigsOf l with
    | none => simp
    | some hs => simp [eq_comm]

/-- A run of codes names the letters whose ranks they are. -/
theorem sigsOf_eq_some : sigsOf l = some gs ↔ gs.map Sig.rank = l.map BitVec.toNat := by
  induction l generalizing gs with
  | nil => simp [sigsOf, eq_comm]
  | cons b l ih =>
    rw [sigsOf_cons_eq_some]
    cases gs with
    | nil => simp
    | cons g gs => simp [sigOf_eq_some, ih]

theorem sigsOf_of_bounds (h : ∀ b, b ∈ l → 1 ≤ b.toNat ∧ b.toNat ≤ 6) : ∃ gs, sigsOf l = some gs := by
  induction l with
  | nil => exact ⟨[], rfl⟩
  | cons b l ih =>
    obtain ⟨g, hg⟩ := sigOf_of_bounds (h b List.mem_cons_self)
    obtain ⟨gs, hgs⟩ := ih fun c hc => h c (List.mem_cons_of_mem _ hc)
    exact ⟨g :: gs, sigsOf_cons_eq_some.mpr ⟨g, gs, hg, hgs, rfl⟩⟩

/-! ### The positions sent -/

theorem listPositions_get (r : PolicyBytes) {i : Nat} (hi : i < 5) :
    (listPositions r)[i]? = if i < r.listLength.toNat then some (sentPosition r i) else none := by
  unfold listPositions sentPosition
  rw [List.getElem?_take]
  split
  · rw [List.getD_eq_getElem?_getD, List.getElem?_eq_getElem (by exact hi)]
    rfl
  · rfl

theorem length_listPositions (h : r.listLength.toNat ≤ 5) : (listPositions r).length = r.listLength.toNat := by
  unfold listPositions
  rw [List.length_take]
  exact Nat.min_eq_left h

theorem mem_listPositions (h : r.listLength.toNat ≤ 5) :
    b ∈ listPositions r ↔ ∃ i : Fin 5, i.val < r.listLength.toNat ∧ sentPosition r i = b := by
  rw [List.mem_iff_getElem?]
  constructor
  · rintro ⟨i, hi⟩
    have hlt : i < r.listLength.toNat := by
      rw [← length_listPositions h]
      exact (List.getElem?_eq_some_iff.mp hi).1
    have h5 : i < 5 := by omega
    rw [listPositions_get r h5, if_pos hlt] at hi
    exact ⟨⟨i, h5⟩, hlt, Option.some.inj hi⟩
  · rintro ⟨i, hlt, rfl⟩
    exact ⟨i.val, by rw [listPositions_get r i.isLt, if_pos hlt]⟩

theorem nodup_listPositions (h : r.listLength.toNat ≤ 5) :
    (listPositions r).Nodup ↔
      ∀ i : Fin 5, i.val < r.listLength.toNat → ∀ j : Fin 5, j < i → sentPosition r j ≠ sentPosition r i := by
  rw [List.nodup_iff_getElem?_ne_getElem?, length_listPositions h]
  constructor
  · intro hn i hi j hj he
    refine hn j i hj hi ?_
    rw [listPositions_get r j.isLt, listPositions_get r i.isLt, if_pos hi, if_pos (Nat.lt_trans hj hi), he]
  · intro hn j i hj hi he
    have h5 : i < 5 := by omega
    rw [listPositions_get r (Nat.lt_trans hj h5), listPositions_get r h5, if_pos hi, if_pos (Nat.lt_trans hj hi)] at he
    exact hn ⟨i, h5⟩ hi ⟨j, Nat.lt_trans hj h5⟩ hj (Option.some.inj he)

/-! ### The checks of R163 -/

/-- A trial list is valid by the codes that name it (R161, R163). -/
theorem trialListValid_codes {m : Sig} (h : gs.map Sig.rank = l.map BitVec.toNat) :
    trialListValid gs m = true ↔ (1 ≤ l.length ∧ l.length ≤ 5) ∧ l.Nodup
      ∧ ∀ b, b ∈ l → 2 ≤ b.toNat ∧ b.toNat ≤ m.rank := by
  have hlen : gs.length = l.length := by
    have := congrArg List.length h
    rwa [List.length_map, List.length_map] at this
  have hnodup : gs.Nodup ↔ l.Nodup := by
    rw [← List.nodup_map_iff (f := Sig.rank) fun _ _ => Sig.rank_inj, h,
      List.nodup_map_iff fun _ _ => BitVec.eq_of_toNat_eq]
  have hall : (∀ g, g ∈ gs → g ≠ .P ∧ g.rank ≤ m.rank) ↔ ∀ b, b ∈ l → 2 ≤ b.toNat ∧ b.toNat ≤ m.rank := by
    have hrank : ∀ g : Sig, g ≠ .P ↔ 2 ≤ g.rank := fun g => by cases g <;> decide
    have hmem : ∀ k, k ∈ gs.map Sig.rank ↔ k ∈ l.map BitVec.toNat := fun k => by rw [h]
    simp only [List.mem_map] at hmem
    constructor
    · intro ha b hb
      obtain ⟨g, hg, hk⟩ := (hmem b.toNat).mpr ⟨b, hb, rfl⟩
      rw [← hk]
      exact ⟨(hrank g).mp (ha g hg).1, (ha g hg).2⟩
    · intro ha g hg
      obtain ⟨b, hb, hk⟩ := (hmem g.rank).mp ⟨g, hg, rfl⟩
      rw [hrank, ← hk]
      exact ha b hb
  unfold trialListValid
  simp only [Bool.and_eq_true, Bool.not_eq_true', decide_eq_true_eq, List.all_eq_true, bne_iff_ne, List.isEmpty_eq_false_iff,
    and_assoc]
  rw [hall, hnodup, hlen, ← List.length_pos_iff, hlen]
  rfl

/-- A record that Set Policy takes is the one it sent, and passes the checks (R163, R164). -/
theorem policyOf_sent {en : Bool} (h : policyOf en r = some n) : recordPasses r ∧ n.isSent r := by
  unfold policyOf at h
  cases hf : yesNoOf r.fixedDevice with
  | none => simp [hf] at h
  | some f =>
    cases hu : yesNoOf r.upgradeOnRelease with
    | none => simp [hf, hu] at h
    | some u =>
      cases hm : sigOf r.maxSignature with
      | none => simp [hf, hu, hm] at h
      | some m =>
        cases hl : sigsOf (listPositions r) with
        | none => simp [hf, hu, hm, hl] at h
        | some gs =>
          simp only [hf, hu, hm, hl] at h
          split at h
          · rename_i hv
            cases h
            obtain ⟨hranges, hvalid⟩ := Bool.and_eq_true_iff.mp hv
            have hcodes := sigsOf_eq_some.mp hl
            obtain ⟨hlength, hnodup, hbounds⟩ := (trialListValid_codes hcodes).mp hvalid
            have hmax := sigOf_eq_some.mp hm
            have hfix := yesNoOf_eq_some.mp hf
            have hup := yesNoOf_eq_some.mp hu
            have hf1 := yesNo_le f
            have hu1 := yesNo_le u
            rw [← hfix] at hf1
            rw [← hup] at hu1
            have hmb := m.rank_bounds
            simp only [policyRangesValid, byteWithin, Bool.and_eq_true, decide_eq_true_eq] at hranges
            obtain ⟨⟨⟨⟨⟨⟨⟨⟨hpr, hll⟩, hew⟩, hhc⟩, hiw⟩, hlt⟩, hto⟩, hrl⟩, hfr⟩ := hranges
            refine ⟨⟨hf1, hu1, hpr.2, hll, by omega, fun i hi => ?_, hew, hhc, hiw.2, hlt.2, hto.2, hrl, hfr.2⟩,
              hfix, hup, rfl, ?_, fun i g hg => ?_, hmax, rfl, rfl, rfl, rfl, rfl, rfl, rfl, rfl⟩
            · have hb := hbounds _ ((mem_listPositions hll.2).mpr ⟨i, hi, rfl⟩)
              exact ⟨hb.1, by omega, by omega, (nodup_listPositions hll.2).mp hnodup i hi⟩
            · have := congrArg List.length hcodes
              rwa [List.length_map, List.length_map, length_listPositions hll.2] at this
            · have hi := congrArg (fun l => l[i.val]?) hcodes
              simp only [List.getElem?_map] at hi
              rw [show gs[i.val]? = some g from hg, listPositions_get r i.isLt] at hi
              split at hi
              · exact Option.some.inj hi
              · cases hi
          · cases h

/-- A record that passes the checks is taken (R163). -/
theorem policyOf_of_passes (h : recordPasses r) (en : Bool) : ∃ n, policyOf en r = some n := by
  obtain ⟨hf1, hu1, hpr, hll, hmb, hpos, hew, hhc, hiw, hlt, hto, hrl, hfr⟩ := h
  obtain ⟨f, hf⟩ := yesNoOf_of_le hf1
  obtain ⟨u, hu⟩ := yesNoOf_of_le hu1
  obtain ⟨m, hm⟩ := sigOf_of_bounds hmb
  have hmem : ∀ b, b ∈ listPositions r → 2 ≤ b.toNat ∧ b.toNat ≤ 6 ∧ b.toNat ≤ r.maxSignature.toNat := fun b hb => by
    obtain ⟨i, hi, rfl⟩ := (mem_listPositions hll.2).mp hb
    obtain ⟨h1, h2, h3, -⟩ := hpos i hi
    exact ⟨h1, h2, h3⟩
  obtain ⟨gs, hgs⟩ := sigsOf_of_bounds (l := listPositions r) fun b hb => by
    have := hmem b hb
    omega
  have hmax := sigOf_eq_some.mp hm
  have hvalid : trialListValid gs m = true := by
    refine (trialListValid_codes (sigsOf_eq_some.mp hgs)).mpr ⟨?_, ?_, fun b hb => ?_⟩
    · rw [length_listPositions hll.2]
      exact hll
    · refine (nodup_listPositions hll.2).mpr fun i hi => ?_
      obtain ⟨-, -, -, hn⟩ := hpos i hi
      exact hn
    · have := hmem b hb
      omega
  have hranges : policyRangesValid r = true := by
    simp only [policyRangesValid, byteWithin, Bool.and_eq_true, decide_eq_true_eq]
    omega
  unfold policyOf
  simp only [hf, hu, hm, hgs, hranges, hvalid, Bool.and_true, if_true]
  exact ⟨_, rfl⟩

theorem policyOf_fixed {en : Bool} (h : policyOf en r = some n) (f : Bool) :
    n.fixedDevice = f ↔ r.fixedDevice = yesNo f := by
  obtain ⟨-, hfix, -⟩ := policyOf_sent h
  rw [hfix]
  refine ⟨fun e => by rw [e], fun e => ?_⟩
  have h1 := yesNoOf_yesNo n.fixedDevice
  rw [e, yesNoOf_yesNo] at h1
  exact (Option.some.inj h1).symm

/-! ### The command -/

theorem exec_setPolicy (tag : Byte) (hr : s.host.inReset = false) (p : PortId) (r : PolicyBytes) :
    exec (.setPolicy tag (BitVec.ofNat 8 p.val) r) s = .next (
      match policyOf (s.port p).policy.enabled r with
      | none => s.refuse .badParam tag 0x10
      | some n =>
        if n.fixedDevice ≠ (s.port p).policy.fixedDevice ∧ (s.port p).state ≠ .disabled then s.refuse .wrongState tag 0x10
        else (s.writePolicy p n).respondWith tag 0x10 (·.policyData p)) :=
  congrArg _ ((State.taking_running s _ hr).trans (State.onPort_code _ _ _ _ _))

/-- Settles O11: a record that passes every check replaces the port's, and another changes nothing. -/
theorem setPolicyReplacesTheRecord : Obligations.SetPolicyReplacesTheRecord := by
  unfold Obligations.SetPolicyReplacesTheRecord
  intro s tag p r hr
  have run := exec_setPolicy tag hr p r
  refine ⟨fun hpass hfix => ?taken, fun hpass hfix hs => ?wrongState, fun hno => ?refused⟩
  case taken =>
    obtain ⟨n, hn⟩ := policyOf_of_passes hpass (s.port p).policy.enabled
    obtain ⟨hin, hen⟩ := policyOf_eq_some hn
    obtain ⟨-, hsent⟩ := policyOf_sent hn
    rw [hn] at run
    dsimp only at run
    rw [if_neg fun h => hfix.elim (fun hf => h.1 ((policyOf_fixed hn _).mpr hf)) h.2] at run
    have hport : ((s.writePolicy p n).respondWith tag 0x10 (·.policyData p)).port p = { s.port p with policy := n } :=
      State.port_modPort_same s p fun q => { q with policy := n }
    refine ⟨_, run, ?_⟩
    rw [hport]
    exact ⟨hsent, hen, hin, rfl, fun q hq => State.port_modPort_ne s p q (fun q => { q with policy := n }) hq, rfl, rfl, rfl, rfl,
      replied_respond _ _ _ _ _⟩
  case wrongState =>
    obtain ⟨n, hn⟩ := policyOf_of_passes hpass (s.port p).policy.enabled
    refine refused_of_exec (run.trans (congrArg _ ?_))
    rw [hn]
    exact if_pos ⟨fun h => hfix ((policyOf_fixed hn _).mp h), hs⟩
  case refused =>
    refine refused_of_exec (run.trans (congrArg _ ?_))
    cases hn : policyOf (s.port p).policy.enabled r with
    | none => rfl
    | some n => exact absurd (policyOf_sent hn).1 hno

end Sys2Proof.Machine
end

section
/-! The choice of victims. -/

namespace Sys2Proof.Machine

variable {s t : State} {p q r : PortId} {chosen : List PortId} {total : Nat}

/-! ### The order of victims -/

theorem State.victimBefore_iff (s : State) (p q : PortId) :
    s.victimBefore p q = true ↔ (s.port p).policy.priority < (s.port q).policy.priority
      ∨ ((s.port p).policy.priority = (s.port q).policy.priority
          ∧ (s.grant q < s.grant p ∨ (s.grant q = s.grant p ∧ q < p))) := by
  simp [State.victimBefore]

theorem State.victimBefore_trans (h : s.victimBefore p q = true) (g : s.victimBefore q r = true) :
    s.victimBefore p r = true := by
  rw [State.victimBefore_iff, Fin.lt_def] at *
  omega

theorem State.victimBefore_total (h : p ≠ q) : s.victimBefore p q = true ∨ s.victimBefore q p = true := by
  have hne : p.val ≠ q.val := fun e => h (Fin.ext e)
  rw [State.victimBefore_iff, State.victimBefore_iff, Fin.lt_def, Fin.lt_def]
  omega

/-- The pick of a run over a list: the first by an order that is total and transitive. -/
theorem foldl_first {before : PortId → PortId → Bool} {f : Option PortId → PortId → Option PortId}
    (hnone : ∀ p, f none p = some p) (hsome : ∀ b p, f (some b) p = if before p b then some p else some b)
    (htrans : ∀ p q r, before p q = true → before q r = true → before p r = true)
    (htotal : ∀ p q, p ≠ q → before p q = true ∨ before q p = true) (l : List PortId) :
    (l.foldl f none = none → l = [])
      ∧ ∀ b, l.foldl f none = some b → b ∈ l ∧ ∀ q, q ∈ l → q ≠ b → before b q = true := by
  induction l using List.reverseRecOn with
  | nil => exact ⟨fun _ => rfl, fun b h => by cases h⟩
  | append_singleton l p ih =>
    obtain ⟨hempty, hfirst⟩ := ih
    rw [List.foldl_append, List.foldl_cons, List.foldl_nil]
    cases hl : l.foldl f none with
    | none =>
      rw [hnone, hempty hl]
      refine ⟨fun h => (by cases h), fun b hb => ?_⟩
      obtain rfl := Option.some.inj hb
      exact ⟨List.mem_singleton_self p, fun q hq hne => absurd (List.mem_singleton.mp hq) hne⟩
    | some b =>
      obtain ⟨hmem, hall⟩ := hfirst b hl
      rw [hsome]
      split
      · rename_i hbefore
        refine ⟨fun h => (by cases h), fun c hc => ?_⟩
        obtain rfl := Option.some.inj hc
        refine ⟨List.mem_append_right l (List.mem_singleton_self p), fun q hq hne => ?_⟩
        rcases List.mem_append.mp hq with hq | hq
        · by_cases hqb : q = b
          · rw [hqb]
            exact hbefore
          · exact htrans p b q hbefore (hall q hq hqb)
        · exact absurd (List.mem_singleton.mp hq) hne
      · rename_i hnot
        refine ⟨fun h => (by cases h), fun c hc => ?_⟩
        obtain rfl := Option.some.inj hc
        refine ⟨List.mem_append_left _ hmem, fun q hq hne => ?_⟩
        rcases List.mem_append.mp hq with hq | hq
        · exact hall q hq hne
        · obtain rfl := List.mem_singleton.mp hq
          exact (htotal q b hne).resolve_left hnot

/-- A port that may be chosen: not chosen yet, its grant above the base (R134). -/
def State.eligible (s : State) (chosen : List PortId) (p : PortId) : Prop := p ∉ chosen ∧ 500 < s.grant p

theorem State.nextVictim_first (s : State) (chosen : List PortId) :
    (s.nextVictim chosen = none → ∀ p, ¬s.eligible chosen p)
      ∧ ∀ p, s.nextVictim chosen = some p → s.eligible chosen p
          ∧ ∀ q, s.eligible chosen q → q ≠ p → s.victimBefore p q = true := by
  have hmem : ∀ p, p ∈ (allPorts.filter fun p => decide (p ∉ chosen) && decide (baseGrant < s.grant p))
      ↔ s.eligible chosen p := fun p => by
    have hall : p ∈ allPorts := List.mem_finRange p
    rw [List.mem_filter, Bool.and_eq_true, decide_eq_true_eq, decide_eq_true_eq]
    exact ⟨fun h => h.2, fun h => ⟨hall, h⟩⟩
  obtain ⟨hnone, hsome⟩ := foldl_first (before := s.victimBefore) (f := fun best p =>
      match best with
      | none => some p
      | some b => if s.victimBefore p b then some p else some b) (fun _ => rfl) (fun _ _ => rfl)
    (fun _ _ _ => State.victimBefore_trans) (fun _ _ => State.victimBefore_total)
    (allPorts.filter fun p => decide (p ∉ chosen) && decide (baseGrant < s.grant p))
  refine ⟨fun h p hp => ?_, fun p hp => ?_⟩
  · have hempty := hnone h
    have := (hmem p).mpr hp
    rw [hempty] at this
    cases this
  · obtain ⟨hm, hall⟩ := hsome p hp
    exact ⟨(hmem p).mp hm, fun q hq hne => hall q ((hmem q).mpr hq) hne⟩

/-! ### The victims of a total -/

/-- With no port left to choose, the counted sum is at most the base of every port. -/
theorem State.countedSum_le (h : ∀ p, ¬s.eligible chosen p) : s.countedSum chosen ≤ 4000 := by
  have hle : ∀ n, n ∈ allPorts.map (s.countedGrant chosen) → n ≤ 500 := fun n hn => by
    obtain ⟨p, -, rfl⟩ := List.mem_map.mp hn
    unfold State.countedGrant
    split
    · exact Nat.le_refl 500
    · rename_i hp
      exact Nat.not_lt.mp fun hlt => h p ⟨hp, hlt⟩
  have hsum := List.sum_le_card_nsmul _ _ hle
  rwa [List.length_map, allPorts, List.length_finRange] at hsum

/-- The ports a choice adds, each of them next in order while the counted sum is above the total. -/
structure Chosen (s : State) (total : Nat) (before after : List PortId) : Prop where
  prefixed : before <+: after
  nodup : after.Nodup
  fits : s.countedSum after ≤ total
  eligible : ∀ p, p ∈ after → p ∈ before ∨ 500 < s.grant p
  ordered : ∀ i p, before.length ≤ i → after[i]? = some p →
    total < s.countedSum (after.take i) ∧ s.nextVictim (after.take i) = some p

theorem State.chooseVictims_chosen (htotal : 4000 ≤ total) (n : Nat) (chosen : List PortId) (hn : chosen.Nodup)
    (hlen : chosen.length + n = 8) : Chosen s total chosen (s.chooseVictims total n chosen) := by
  have done : ∀ {l : List PortId}, l.Nodup → s.countedSum l ≤ total → Chosen s total l l := fun hl hfit =>
    ⟨List.prefix_refl _, hl, hfit, fun p hp => Or.inl hp, fun i p hi hp => by
      rw [List.getElem?_eq_none hi] at hp
      cases hp⟩
  induction n generalizing chosen with
  | zero =>
    refine done hn (le_trans (State.countedSum_le fun p hp => hp.1 ?_) htotal)
    have hcard : chosen.toFinset.card = 8 := by rw [List.toFinset_card_of_nodup hn]; exact hlen
    have huniv : chosen.toFinset = Finset.univ := Finset.eq_univ_of_card _ (by rw [hcard, Fintype.card_fin])
    exact List.mem_toFinset.mp (by rw [huniv]; exact Finset.mem_univ p)
  | succ n ih =>
    unfold State.chooseVictims
    split
    · rename_i hfit
      exact done hn hfit
    · rename_i hover
      obtain ⟨hnone, hsome⟩ := s.nextVictim_first chosen
      cases hnext : s.nextVictim chosen with
      | none => exact absurd (le_trans (State.countedSum_le (hnone hnext)) htotal) hover
      | some p =>
        obtain ⟨⟨hp, hgrant⟩, -⟩ := hsome p hnext
        have hn' : (chosen ++ [p]).Nodup := by
          rw [List.nodup_append]
          exact ⟨hn, List.nodup_singleton p, fun a ha b hb e => hp (by
            rw [← List.mem_singleton.mp hb, ← e]
            exact ha)⟩
        obtain ⟨hpre, hnd, hfit, helig, hord⟩ := ih (chosen ++ [p]) hn' (by
          rw [List.length_append, List.length_singleton]
          omega)
        refine ⟨(List.prefix_append chosen [p]).trans hpre, hnd, hfit, fun q hq => ?_, fun i q hi hq => ?_⟩
        · rcases helig q hq with hq | hq
          · rcases List.mem_append.mp hq with hq | hq
            · exact Or.inl hq
            · rw [List.mem_singleton.mp hq]
              exact Or.inr hgrant
          · exact Or.inr hq
        · rcases Nat.lt_or_eq_of_le hi with hlt | heq
          · refine hord i q ?_ hq
            rw [List.length_append, List.length_singleton]
            exact hlt
          · have hfull := hpre
            obtain ⟨rest, hrest⟩ := hfull
            have htake : (s.chooseVictims total n (chosen ++ [p])).take i = chosen := by
              rw [← hrest, ← heq, List.append_assoc, List.take_left]
            have hget : (s.chooseVictims total n (chosen ++ [p]))[i]? = some p := by
              rw [← hrest, ← heq, List.append_assoc, List.getElem?_append_right (Nat.le_refl _), Nat.sub_self]
              rfl
            rw [htake]
            obtain rfl : p = q := Option.some.inj (hget.symm.trans hq)
            exact ⟨Nat.not_le.mp hover, hnext⟩

theorem State.victimsFor_chosen (htotal : 4000 ≤ total) (s : State) : Chosen s total [] (s.victimsFor total) :=
  State.chooseVictims_chosen htotal 8 [] List.nodup_nil rfl

end Sys2Proof.Machine
end

section
/-! What a shed leaves of the rest of the part. -/

namespace Sys2Proof.Machine

variable {s t u : State} {p q r : PortId} {l : List PortId}

/-! ### One victim -/

/-- What a shed at a port leaves of the others and of the part. -/
structure Shedding (p : PortId) (s t : State) : Prop where
  elsewhere : Elsewhere p s t
  groups : ∀ g, g ≠ portGroup p → t.group g = s.group g
  victims : ∀ r, r ≠ p → t.victim r = s.victim r
  released : t.victim p = true → s.victim p = true
  total : t.budget.total = s.budget.total
  pendingTotal : t.budget.pendingTotal = s.budget.pendingTotal
  waitLimit : t.budget.waitLimit = s.budget.waitLimit
  memory : t.memory = s.memory
  kinds : Pending s t

theorem Shedding.refl (p : PortId) (s : State) : Shedding p s s :=
  ⟨fun _ _ => ⟨rfl, rfl, rfl⟩, fun _ _ => rfl, fun _ _ => rfl, id, rfl, rfl, rfl, rfl, Pending.refl s⟩

theorem Shedding.modPort (h : Shedding p s t) (f : Port → Port) : Shedding p s (t.modPort p f) :=
  ⟨h.elsewhere.trans (Elsewhere.modPort t p f), h.groups, h.victims, h.released, h.total, h.pendingTotal, h.waitLimit,
    h.memory, h.kinds⟩

theorem Shedding.modSession (h : Shedding p s t) (f : Session → Session) : Shedding p s (t.modSession p f) := h.modPort _

theorem Shedding.withdraw (h : Shedding p s t) : Shedding p s (t.withdraw p) :=
  ⟨h.elsewhere.trans (Elsewhere.withdraw t p), h.groups, h.victims, h.released, h.total, h.pendingTotal, h.waitLimit,
    h.memory, h.kinds⟩

theorem Shedding.raisePort (h : Shedding p s t) (k : Kind) : Shedding p s (t.raisePort p k) :=
  ⟨h.elsewhere, fun g hg => (State.group_raise_ne _ _ _ _ hg).trans (h.groups g hg), h.victims, h.released, h.total,
    h.pendingTotal, h.waitLimit, h.memory, h.kinds.raise (portGroup p) k⟩

theorem State.fallGrant_budget (s : State) (p : PortId) (mA : Nat) :
    (s.fallGrant p mA).budget.total = s.budget.total ∧ (s.fallGrant p mA).budget.pendingTotal = s.budget.pendingTotal
      ∧ (s.fallGrant p mA).budget.waitLimit = s.budget.waitLimit := by
  unfold State.fallGrant
  split <;> exact ⟨rfl, rfl, rfl⟩

theorem Shedding.fallBase (h : Shedding p s t) : Shedding p s (t.fallGrant p baseGrant) := by
  obtain ⟨h1, h2, h3⟩ := t.fallGrant_budget p baseGrant
  obtain ⟨-, hn, hm, -⟩ := t.fallGrant_same p baseGrant
  have hgroup : ∀ g, (t.fallGrant p baseGrant).group g = t.group g := fun g =>
    congrArg (fun n : Notices => n.groups[g.val]) hn
  have hvictim : ∀ r, (t.fallGrant p baseGrant).victim r = if r = p then false else t.victim r := fun r =>
    (t.setGrant p baseGrant).victim_leaveVictims p r
  refine ⟨h.elsewhere.trans (Elsewhere.fallGrant t p baseGrant), fun g hg => (hgroup g).trans (h.groups g hg),
    fun r hr => ?_, fun hv => ?_, h1.trans h.total, h2.trans h.pendingTotal, h3.trans h.waitLimit, hm.trans h.memory,
    fun g m hp => ?_⟩
  · rw [hvictim, if_neg hr]
    exact h.victims r hr
  · rw [hvictim, if_pos rfl] at hv
    cases hv
  · rw [hgroup]
    exact h.kinds g m hp

theorem Shedding.shedOccupied (h : Shedding p s t) : Shedding p s (t.shedOccupied p) := by
  rw [State.shedOccupied_eq]
  split
  · exact ((((h.withdraw.modPort _).fallBase).modPort _).raisePort _)
  · exact (h.withdraw.modPort _).modPort _

theorem Shedding.shedHeld (h : Shedding p s t) : Shedding p s (t.shedHeld p) := by
  unfold State.shedHeld
  dsimp only
  split
  · exact ((((h.modSession _).fallBase).modPort _).raisePort _)
  · exact (h.modSession _).modPort _

theorem Shedding.shedSuspended (h : Shedding p s t) : Shedding p s (t.shedSuspended p) := by
  unfold State.shedSuspended
  split
  · exact (h.modSession _).fallBase
  · exact h

theorem Shedding.shedPort (h : Shedding p s t) : Shedding p s (t.shedPort p) := by
  unfold State.shedPort
  cases (t.port p).state with
  | occupied => exact h.shedOccupied
  | hold => exact h.shedHeld
  | recovery => exact h.shedSuspended
  | powering => exact h.shedSuspended
  | idle | disabled | fault | quarantined => exact h

theorem State.shedVictim_shedding (s : State) (p : PortId) : Shedding p s (s.shedVictim p) :=
  ((Shedding.refl p s).raisePort .shed).shedPort

/-- A victim has SHED pending (R134). -/
theorem State.shedVictim_pending (s : State) (p : PortId) :
    ((s.shedVictim p).group (portGroup p)).pending &&& Kind.shed.mask ≠ 0 :=
  (Shedding.shedPort (Shedding.refl p (s.raisePort p .shed))).kinds _ _ (pending_raised (raisedIn_raisePort s p .shed))

/-- A victim in OCCUPIED waits no more, another waits as before. -/
theorem State.queued_shedVictim (h : (s.port p).state = .occupied ∨ s.queued p = false) :
    (s.shedVictim p).queued p = false := by
  have hwaits : s.queued p = false → s.waits p = [] := (s.queued_eq_false p).mp
  rw [State.queued_eq_false]
  unfold State.shedVictim State.shedPort
  rw [State.port_raisePort]
  cases hs : (s.port p).state with
  | occupied =>
    dsimp only
    rw [State.shedOccupied_eq]
    split
    · exact (State.waits_fallGrant _ _ _ _).trans (State.waits_withdraw_same _ _)
    · exact State.waits_withdraw_same _ _
  | hold =>
    have hw := hwaits (h.resolve_left (by simp [hs]))
    dsimp only
    unfold State.shedHeld
    dsimp only
    split
    · exact (State.waits_fallGrant _ _ _ _).trans hw
    · exact hw
  | recovery | powering =>
    have hw := hwaits (h.resolve_left (by simp [hs]))
    dsimp only
    unfold State.shedSuspended
    split
    · exact (State.waits_fallGrant _ _ _ _).trans hw
    · exact hw
  | idle | disabled | fault | quarantined => exact hwaits (h.resolve_left (by simp [hs]))

/-! ### Every victim -/

/-- What the sheds of a list of ports leave: each shed at its own port, from its own unit and grant. -/
structure Sheds (l : List PortId) (s t : State) : Prop where
  others : ∀ r, r ∉ l → t.port r = s.port r ∧ t.grant r = s.grant r ∧ t.waits r = s.waits r ∧ t.victim r = s.victim r
    ∧ t.group (portGroup r) = s.group (portGroup r)
  chosen : ∀ r, r ∈ l → ∃ u : State, u.port r = s.port r ∧ u.grant r = s.grant r ∧ u.waits r = s.waits r
    ∧ t.port r = (u.shedVictim r).port r ∧ t.grant r = (u.shedVictim r).grant r ∧ t.waits r = (u.shedVictim r).waits r
    ∧ t.group (portGroup r) = (u.shedVictim r).group (portGroup r)
  released : ∀ r, t.victim r = true → s.victim r = true
  total : t.budget.total = s.budget.total
  pendingTotal : t.budget.pendingTotal = s.budget.pendingTotal
  waitLimit : t.budget.waitLimit = s.budget.waitLimit
  memory : t.memory = s.memory

theorem State.shedVictims_sheds (l : List PortId) (hl : l.Nodup) (s : State) : Sheds l s (l.foldl State.shedVictim s) := by
  induction l generalizing s with
  | nil =>
    exact ⟨fun _ _ => ⟨rfl, rfl, rfl, rfl, rfl⟩, fun _ h => (by cases h), fun _ => id, rfl, rfl, rfl, rfl⟩
  | cons p l ih =>
    obtain ⟨hp, hl'⟩ := List.nodup_cons.mp hl
    have h0 := s.shedVictim_shedding p
    obtain ⟨hothers, hchosen, hreleased, htotal, hpend, hwait, hmem⟩ := ih hl' (s.shedVictim p)
    rw [List.foldl_cons]
    generalize l.foldl State.shedVictim (s.shedVictim p) = t at *
    refine ⟨fun r hr => ?_, fun r hr => ?_, fun r hv => ?_, htotal.trans h0.total, hpend.trans h0.pendingTotal,
      hwait.trans h0.waitLimit, hmem.trans h0.memory⟩
    · obtain ⟨hrp, hrl⟩ : r ≠ p ∧ r ∉ l := by simpa using hr
      obtain ⟨h1, h2, h3, h4, h5⟩ := hothers r hrl
      obtain ⟨g1, g2, g3⟩ := h0.elsewhere r hrp
      exact ⟨h1.trans g1, h2.trans g2, h3.trans g3, h4.trans (h0.victims r hrp),
        h5.trans (h0.groups _ (portGroup_ne hrp))⟩
    · by_cases hrp : r = p
      · subst hrp
        obtain ⟨h1, h2, h3, -, h5⟩ := hothers r hp
        exact ⟨s, rfl, rfl, rfl, h1, h2, h3, h5⟩
      · obtain ⟨u, u1, u2, u3, h⟩ := hchosen r ((List.mem_cons.mp hr).resolve_left hrp)
        obtain ⟨g1, g2, g3⟩ := h0.elsewhere r hrp
        exact ⟨u, u1.trans g1, u2.trans g2, u3.trans g3, h⟩
    · have hv' := hreleased r hv
      by_cases hrp : r = p
      · subst hrp
        exact h0.released hv'
      · rwa [h0.victims r hrp] at hv'

end Sys2Proof.Machine
end

section
/-! What a shed makes of its own port. -/

namespace Sys2Proof.Machine

variable {s t u : State} {p : PortId} {q : Port} {x y : Session} {r : RePresent}

/-- An evaluation that a shed gives up has its accumulators cleared (R57, R66). -/
theorem Session.shedNow_abandons (x : Session) (h : x.phase = some .evaluating ∨ x.held = some .evaluating) :
    x.shedNow.sum = 0 ∧ x.shedNow.count = 0 ∧ x.shedNow.probeSeen = false := by
  have habandon : x.abandon = x.clearAccumulators := if_pos (by simpa using h)
  unfold Session.shedNow
  rw [habandon]
  exact ⟨rfl, rfl, rfl⟩

/-- The re-present that a shed leaves: the one in flight turned toward P, or one started toward it (R13, R66). -/
def Port.shedTarget (q : Port) : RePresent :=
  q.rePresent.elim ⟨.P, 50, false, .shed, q.presented⟩ fun r => { r with target := .P, requester := .shed }

/-- A request toward P under a shed at a port that is not at rest on it. -/
theorem Port.request_P_shed (hsw : q.switchOn = true) (h : q.presented ≠ some .P ∨ q.rePresent.isSome = true) :
    q.atOnce .P ≠ true ∧ (q.requestRePresent .P .shed).rePresent = some q.shedTarget
      ∧ (q.requestRePresent .P .shed).presented = (if q.rePresent.isSome then q.presented else none)
      ∧ (q.requestRePresent .P .shed).timers.hold = q.timers.hold
      ∧ (q.requestRePresent .P .shed).timers.settle = q.timers.settle
      ∧ (q.requestRePresent .P .shed).timers.identityWait = q.timers.identityWait
      ∧ (q.requestRePresent .P .shed).timers.evaluation = q.timers.evaluation := by
  refine ⟨fun hat => ?_, ?_⟩
  · obtain ⟨hr, hp⟩ := Port.atOnce_P.mp hat
    rcases h with h | h
    · exact h hp
    · rw [hr] at h
      cases h
  · unfold Port.shedTarget
    cases hr : q.rePresent with
    | some r =>
      rw [Port.request_P_flight hsw hr]
      exact ⟨rfl, rfl, rfl, rfl, rfl, rfl⟩
    | none =>
      rw [Port.request_P_start hsw hr]
      exact ⟨rfl, rfl, rfl, rfl, rfl, rfl⟩

/-- The record a request under a shed keeps. -/
theorem Session.of_unphased (h : y.unphased = x.unphased) :
    y.shed = x.shed ∧ y.trialsBegun = x.trialsBegun ∧ y.recomputeDue = x.recomputeDue ∧ y.steps = x.steps
      ∧ y.verdicts = x.verdicts ∧ y.sum = x.sum ∧ y.count = x.count ∧ y.probeSeen = x.probeSeen := by
  have h1 := congrArg Session.shed h
  have h2 := congrArg Session.trialsBegun h
  have h3 := congrArg Session.recomputeDue h
  have h5 := congrArg Session.verdicts h
  have h6 := congrArg Session.sum h
  have h7 := congrArg Session.count h
  have h8 := congrArg Session.probeSeen h
  exact ⟨h1, h2, h3, Session.steps_of_unphased h, h5, h6, h7, h8⟩

theorem State.shedVictim_occupied (hs : (s.port p).state = .occupied) :
    s.shedVictim p = (s.raisePort p .shed).shedOccupied p := by
  unfold State.shedVictim State.shedPort
  rw [State.port_raisePort, hs]

theorem State.shedVictim_hold (hs : (s.port p).state = .hold) :
    s.shedVictim p = (s.raisePort p .shed).shedHeld p := by
  unfold State.shedVictim State.shedPort
  rw [State.port_raisePort, hs]

theorem State.shedVictim_suspended (hs : (s.port p).state = .recovery ∨ (s.port p).state = .powering) :
    s.shedVictim p = (s.raisePort p .shed).shedSuspended p := by
  unfold State.shedVictim State.shedPort
  rw [State.port_raisePort]
  rcases hs with hs | hs <;> rw [hs]

theorem State.shedVictim_idle (hs : (s.port p).state = .idle) : s.shedVictim p = s.raisePort p .shed := by
  unfold State.shedVictim State.shedPort
  rw [State.port_raisePort, hs]

/-- A session in OCCUPIED that heads for P under a shed (R66). -/
theorem State.shedVictim_heads (hs : (s.port p).state = .occupied) (hx : (s.port p).session = some x)
    (hsw : (s.port p).switchOn = true) (h : (s.port p).presented ≠ some .P ∨ (s.port p).rePresent.isSome = true) :
    (s.shedVictim p).grant p = s.grant p
      ∧ ((s.shedVictim p).port p).presented = (if (s.port p).rePresent.isSome then (s.port p).presented else none)
      ∧ ((s.shedVictim p).port p).rePresent = some (s.port p).shedTarget
      ∧ (((s.shedVictim p).port p).session.any fun y => y.shed && y.trialsBegun && !y.recomputeDue && y.steps == []
          && y.phase == some .representing && y.target == some .P && y.verdicts == x.verdicts
          && (x.phase != some .evaluating || (y.sum == 0 && y.count == 0 && !y.probeSeen))) = true := by
  have hport : ((((s.raisePort p .shed).withdraw p).modPort p Port.shedNow).port p) = (s.port p).shedNow :=
    State.port_modPort_same _ _ _
  obtain ⟨hat, hre, hpres, -⟩ := Port.request_P_shed (q := (s.port p).shedNow) hsw h
  rw [State.shedVictim_occupied hs, State.shedOccupied_eq, hport, if_neg hat, State.representFor]
  obtain ⟨y, hy, hu⟩ := Port.session_of_unlit ((s.port p).shedNow.unlit_requestRePresent .P .shed) (session_map _ hx)
  refine ⟨rfl, ?_, ?_, ?_⟩
  · rw [State.port_modPort_same, hport]
    exact hpres
  · rw [State.port_modPort_same, hport]
    exact hre
  · obtain ⟨h1, h2, h3, h4, h5, h6, h7, h8⟩ := Session.of_unphased hu
    obtain ⟨-, -, -, hver, -, hshed, htb, hdue, hsteps⟩ := x.shedNow_data
    have htarget : ((s.port p).shedNow.requestRePresent .P .shed).rePresent.map (·.target) = some .P := by
      rw [hre]
      unfold Port.shedTarget
      cases (s.port p).shedNow.rePresent <;> rfl
    have hses : (((((s.raisePort p .shed).withdraw p).modPort p Port.shedNow).modPort p
        fun q => (q.requestRePresent .P .shed).sessionRepresents).port p).session
        = some { y with phase := some .representing, target := some .P } := by
      rw [State.port_modPort_same, hport, ← htarget]
      exact session_map _ hy
    have hempty : y.current = none ∧ y.remaining = [] := by simpa [Session.steps] using h4.trans hsteps
    rw [hses]
    by_cases hev : x.phase = some .evaluating
    · obtain ⟨a1, a2, a3⟩ := x.shedNow_abandons (Or.inl hev)
      simp [h1.trans hshed, h2.trans htb, h3.trans hdue, Session.steps, hempty, h5.trans hver, h6.trans a1, h7.trans a2, h8.trans a3]
    · simp [h1.trans hshed, h2.trans htb, h3.trans hdue, Session.steps, hempty, h5.trans hver, hev]

/-- A session in OCCUPIED that rests on P under a shed (R66, R137). -/
theorem State.shedVictim_rests (hs : (s.port p).state = .occupied) (hx : (s.port p).session = some x)
    (hp : (s.port p).presented = some .P) (hr : (s.port p).rePresent = none) :
    (s.shedVictim p).grant p = 500 ∧ ((s.shedVictim p).group (portGroup p)).pending &&& Kind.steady.mask ≠ 0
      ∧ (((s.shedVictim p).port p).session.any fun y => y.shed && y.trialsBegun && !y.recomputeDue && y.steps == []
          && y.phase == some .steady && y.verdicts == x.verdicts) = true := by
  obtain ⟨hport, hgrant, -, -⟩ := State.shedOccupied_rest_frame (s := s.raisePort p .shed) hp hr
  rw [State.shedVictim_occupied hs]
  refine ⟨hgrant, ?_, ?_⟩
  · rw [State.shedOccupied_rest (s := s.raisePort p .shed) hp hr]
    exact pending_raised (raisedIn_enterSteady _ p)
  · obtain ⟨-, -, -, hver, -, hshed, htb, hdue, -⟩ := x.shedNow_data
    have hses : ((s.port p).shedNow.steadied).session = some x.shedNow.steadyNow := session_map _ (session_map _ hx)
    have h1 : x.shedNow.steadyNow.shed = true := hshed
    have h2 : x.shedNow.steadyNow.trialsBegun = true := htb
    have h3 : x.shedNow.steadyNow.recomputeDue = false := hdue
    have h4 : x.shedNow.steadyNow.verdicts = x.verdicts := hver
    rw [hport, State.port_raisePort, hses, Option.any_some, h1, h2, h3, h4]
    simp [Session.steadyNow, Session.endWalk, Session.steps]

/-- The timers of the session's phase stop under a shed in OCCUPIED (R66). -/
theorem State.shedVictim_timers (hs : (s.port p).state = .occupied) (hsw : (s.port p).switchOn = true) :
    ((s.shedVictim p).port p).timers.settle = none ∧ ((s.shedVictim p).port p).timers.identityWait = none
      ∧ ((s.shedVictim p).port p).timers.evaluation = none := by
  by_cases h : (s.port p).presented ≠ some .P ∨ (s.port p).rePresent.isSome = true
  · have hport : ((((s.raisePort p .shed).withdraw p).modPort p Port.shedNow).port p) = (s.port p).shedNow :=
      State.port_modPort_same _ _ _
    obtain ⟨hat, -, -, -, h1, h2, h3⟩ := Port.request_P_shed (q := (s.port p).shedNow) hsw h
    rw [State.shedVictim_occupied hs, State.shedOccupied_eq, hport, if_neg hat, State.representFor,
      State.port_modPort_same, hport]
    exact ⟨h1, h2, h3⟩
  · obtain ⟨hp, hr⟩ := not_or.mp h
    obtain ⟨hport, -, -, -⟩ := State.shedOccupied_rest_frame (s := s.raisePort p .shed) (p := p) (not_not.mp hp)
      (by simpa using hr)
    rw [State.shedVictim_occupied hs, hport]
    exact ⟨rfl, rfl, rfl⟩

/-- A held session that will head for P under a shed (R135). -/
theorem State.shedVictim_holds (hs : (s.port p).state = .hold) (hx : (s.port p).session = some x)
    (hsw : (s.port p).switchOn = true) (h : (s.port p).presented ≠ some .P ∨ (s.port p).rePresent.isSome = true) :
    (s.shedVictim p).grant p = s.grant p ∧ ((s.shedVictim p).port p).timers.hold = (s.port p).timers.hold
      ∧ ((s.shedVictim p).port p).rePresent = some (s.port p).shedTarget
      ∧ (((s.shedVictim p).port p).session.any fun y => y.shed && y.trialsBegun && y.held == some .representing
          && y.target == some .P && y.verdicts == x.verdicts
          && (x.held != some .evaluating || (y.sum == 0 && y.count == 0 && !y.probeSeen))) = true := by
  have hport : ((s.raisePort p .shed).modSession p (·.shedNow)).port p
      = { s.port p with session := (s.port p).session.map (·.shedNow) } := State.port_modSession_same _ _ _
  obtain ⟨hat, hre, -, hhold, -⟩ :=
    Port.request_P_shed (q := { s.port p with session := (s.port p).session.map (·.shedNow) }) hsw h
  rw [State.shedVictim_hold hs]
  unfold State.shedHeld
  dsimp only
  rw [hport, if_neg hat]
  obtain ⟨y, hy, hu⟩ := Port.session_of_unlit
    (Port.unlit_requestRePresent { s.port p with session := (s.port p).session.map (·.shedNow) } .P .shed) (session_map _ hx)
  refine ⟨rfl, ?_, ?_, ?_⟩
  · rw [State.port_modPort_same, hport]
    exact hhold
  · rw [State.port_modPort_same, hport]
    exact hre
  · obtain ⟨h1, h2, -, -, h5, h6, h7, h8⟩ := Session.of_unphased hu
    obtain ⟨-, -, -, hver, -, hshed, htb, -, -⟩ := x.shedNow_data
    rw [State.port_modPort_same, hport]
    simp only [hy, Option.map_some, Option.any_some, hre]
    have htarget : ({ s.port p with session := (s.port p).session.map (·.shedNow) } : Port).shedTarget.target = .P := by
      unfold Port.shedTarget
      cases (s.port p).rePresent <;> rfl
    by_cases hev : x.held = some .evaluating
    · obtain ⟨a1, a2, a3⟩ := x.shedNow_abandons (Or.inr hev)
      simp [h1.trans hshed, h2.trans htb, htarget, h5.trans hver, h6.trans a1, h7.trans a2, h8.trans a3]
    · simp [h1.trans hshed, h2.trans htb, htarget, h5.trans hver, hev]

/-- A suspended session under a shed (R135, R151). -/
theorem State.shedVictim_suspends (hs : (s.port p).state = .recovery ∨ (s.port p).state = .powering)
    (hx : (s.port p).session = some x) :
    (s.shedVictim p).grant p = 500
      ∧ (s.shedVictim p).port p = { s.port p with session := some x.shedKept } := by
  have hsome : ((s.raisePort p .shed).port p).session.isSome = true := by
    rw [State.port_raisePort, hx]
    rfl
  have heq : (s.raisePort p .shed).shedSuspended p
      = ((s.raisePort p .shed).modSession p Session.shedKept).fallGrant p baseGrant := if_pos hsome
  rw [State.shedVictim_suspended hs, heq]
  refine ⟨State.grant_fallGrant_same _ _ _, ?_⟩
  rw [State.port_fallGrant, State.port_modSession_same, State.port_raisePort, hx]
  rfl

end Sys2Proof.Machine
end

section
/-! Set Budget below the sum of the grants. -/

namespace Sys2Proof.Machine

variable {s t u : State} {p : PortId} {q : Port} {x y : Session} {total : Nat}

/-- Only an OCCUPIED port waits for budget (R38, R126). -/
theorem QueueLaw.occupied_of_queued (h : QueueLaw s) (hl : (s.port p).sessionLaw) :
    (s.port p).state = .occupied ∨ s.queued p = false := by
  by_cases hs : (s.port p).state = .occupied
  · exact Or.inl hs
  · refine Or.inr (Bool.eq_false_iff.mpr fun hq => ?_)
    have hphase := (h.2 p).mp hq
    unfold State.phase at hphase
    unfold Port.sessionLaw at hl
    cases hx : (s.port p).session with
    | none => simp [hx] at hphase
    | some x =>
      rw [hx] at hphase hl
      have hp : x.phase = some .waitingBudget := hphase
      cases hst : (s.port p).state <;> simp_all

/-- The state in which the victims of a total are marked (R134). -/
def State.underShed (s : State) (total : Nat) : State :=
  { s with budget := { s.budget with pendingTotal := some total, victims := victimMarks (s.victimsFor total) } }

theorem State.startShed_eq (s : State) (total : Nat) :
    s.startShed total = ((s.victimsFor total).foldl State.shedVictim (s.underShed total)).afterRelease := rfl

theorem State.victim_underShed (s : State) (total : Nat) (p : PortId) :
    (s.underShed total).victim p = true ↔ p ∈ s.victimsFor total := by
  unfold State.victim State.underShed victimMarks
  simp

/-- What a victim's own shed leaves of its port, its grant and its group, whatever is released after it. -/
theorem State.startShed_victim (hqueue : QueueLaw s) (hsession : SessionLaw s) (hn : (s.victimsFor total).Nodup)
    (hp : p ∈ s.victimsFor total) :
    ∃ u : State, u.port p = s.port p ∧ u.grant p = s.grant p
      ∧ (s.startShed total).port p = (u.shedVictim p).port p ∧ (s.startShed total).grant p = (u.shedVictim p).grant p
      ∧ (s.startShed total).group (portGroup p) = (u.shedVictim p).group (portGroup p)
      ∧ (s.startShed total).queued p = false := by
  obtain ⟨u, u1, u2, u3, h1, h2, h3, h4⟩ := (State.shedVictims_sheds _ hn (s.underShed total)).chosen p hp
  have hstate : (u.port p).state = .occupied ∨ u.queued p = false := by
    rcases hqueue.occupied_of_queued (hsession p) with h | h
    · exact Or.inl (by rw [u1]; exact h)
    · rw [State.queued_eq_false] at h
      exact Or.inr ((u.queued_eq_false p).mpr (u3.trans h))
  have hwaits := (State.queued_eq_false _ _).mp (State.queued_shedVictim hstate)
  have hr := released ((State.queued_eq_false _ _).mpr (h3.trans hwaits))
  rw [State.startShed_eq]
  exact ⟨u, u1, u2, hr.port.trans h1, hr.grant.trans h2, hr.group.trans h4, hr.queued⟩

/-- A shed that all victims answer at once completes the change, another leaves it pending (R134, R138). -/
theorem State.startShed_ends (hn : (s.victimsFor total).Nodup) :
    (∀ p, (s.startShed total).victim p = true → p ∈ s.victimsFor total)
      ∧ (((s.startShed total).budget.pendingTotal = some total ∧ (s.startShed total).budget.total = s.budget.total
            ∧ ∃ p, (s.startShed total).victim p = true)
          ∨ ((s.startShed total).budget.pendingTotal = none ∧ (s.startShed total).budget.total = total
            ∧ ∀ p, (s.startShed total).victim p = false))
      ∧ (s.startShed total).budget.waitLimit = s.budget.waitLimit ∧ (s.startShed total).memory = s.memory := by
  have h := State.shedVictims_sheds _ hn (s.underShed total)
  rw [State.startShed_eq]
  generalize (s.victimsFor total).foldl State.shedVictim (s.underShed total) = f at *
  have hpend : f.budget.pendingTotal = some total := h.pendingTotal
  have hsettled := f.afterRelease_settled
  refine ⟨fun p hv => ?_, ?_, hsettled.waitLimit.trans h.waitLimit, hsettled.memory.trans h.memory⟩
  · rw [State.victim_afterRelease] at hv
    exact (s.victim_underShed total p).mp (h.released p hv)
  · cases hno : f.noVictims with
    | true =>
      have hnone := (State.noVictims_iff f).mp hno
      obtain ⟨htotal, hdone, -⟩ := State.afterRelease_completes hpend hnone
      exact Or.inr ⟨hdone, htotal, fun p => (f.victim_afterRelease p).trans (hnone p)⟩
    | false =>
      have hid : f.afterRelease = f := by
        rw [State.afterRelease, hpend]
        dsimp only
        rw [hno, if_neg Bool.false_ne_true]
      have hsome : ∃ p, f.victim p = true := by
        by_contra hall
        have hnone : f.noVictims = true := (State.noVictims_iff f).mpr fun p => by
          simpa using fun hv => hall ⟨p, hv⟩
        rw [hnone] at hno
        cases hno
      rw [hid]
      exact Or.inl ⟨hpend, h.total, hsome⟩

/-- Settles O31: a total below the sum of the grants sheds victims in order until the rest fits. -/
theorem setBudgetShedsUntilTheTotalFits : Obligations.SetBudgetShedsUntilTheTotalFits := by
  unfold Obligations.SetBudgetShedsUntilTheTotalFits
  intro s tag v hr hsession hqueue hvalid hpend hlt
  obtain ⟨-, hnodup, hfits, heligible, hordered⟩ := State.victimsFor_chosen hvalid.1 s
  have hset : s.setBudget tag v
      = (s.startShed v.toNat).respondWith tag 0x03 (·.budgetData (s.victimsFor v.toNat).length) := by
    unfold State.setBudget
    rw [(totalValid_iff v.toNat).mpr hvalid, if_neg (by decide), hpend, if_neg (by decide), if_neg (Nat.not_le.mpr hlt)]
  obtain ⟨hvictims, hends, hwait, hmemory⟩ := State.startShed_ends hnodup
  have hcommands := s.pending_startShed v.toNat
  have hvictim := fun p hp => State.startShed_victim (p := p) hqueue hsession hnodup hp
  generalize s.startShed v.toNat = f at *
  refine ⟨_, (exec_setBudget tag hr v).trans (congrArg _ hset), hfits, hnodup, fun p hp => ⟨?above, ?told⟩, hvictims, hends,
    replied_respond _ _ _ _ _, hwait, hmemory, hcommands, fun i p hi => ?order, fun p hp => ?victim⟩
  case above => exact (heligible p hp).resolve_left List.not_mem_nil
  case told =>
    obtain ⟨u, -, -, -, -, hgroup, -⟩ := hvictim p hp
    have h := u.shedVictim_pending p
    rw [← hgroup] at h
    exact h
  case order =>
    obtain ⟨hover, hnext⟩ := hordered i.val p (Nat.zero_le _) hi
    refine ⟨hover, fun q hq hg hne => ?_⟩
    obtain ⟨-, hfirst⟩ := (s.nextVictim_first _).2 p hnext
    exact (s.victimBefore_iff p q).mp (hfirst q ⟨hq, hg⟩ hne)
  case victim =>
    obtain ⟨u, u1, u2, hport, hgrant, hgroup, hqueued⟩ := hvictim p hp
    have hport' : (f.respondWith tag 0x03 (·.budgetData (s.victimsFor v.toNat).length)).port p = (u.shedVictim p).port p := hport
    have hgrant' : (f.respondWith tag 0x03 (·.budgetData (s.victimsFor v.toNat).length)).grant p = (u.shedVictim p).grant p := hgrant
    have hgroup' : (f.respondWith tag 0x03 (·.budgetData (s.victimsFor v.toNat).length)).group (portGroup p) = (u.shedVictim p).group (portGroup p) := hgroup
    have htarget : some (s.port p).shedTarget = (match (s.port p).rePresent with
        | some r => some { r with target := .P, requester := .shed }
        | none => some ⟨.P, 50, false, .shed, (s.port p).presented⟩) := by
      unfold Port.shedTarget
      cases (s.port p).rePresent <;> rfl
    rw [hport', hgrant', hgroup', ← u1, ← u2]
    rw [← u1] at htarget
    refine ⟨fun hs => ?idle, fun x hx => ⟨fun hs hph hsw => ⟨hqueued, fun h => ?heads, fun h1 h2 => ?rests,
      State.shedVictim_timers hs hsw⟩, fun hs hheld hsw h => ?holds, fun hs => ?suspends⟩⟩
    case idle =>
      rw [State.shedVictim_idle hs]
      exact ⟨rfl, rfl⟩
    case heads =>
      obtain ⟨h1, h2, h3, h4⟩ := State.shedVictim_heads hs hx hsw h
      exact ⟨h1, h2, h3.trans htarget, h4⟩
    case rests => exact State.shedVictim_rests hs hx h1 h2
    case holds =>
      obtain ⟨h1, h2, h3, h4⟩ := State.shedVictim_holds hs hx hsw h
      exact ⟨h1, h2, h3.trans htarget, h4⟩
    case suspends =>
      obtain ⟨h1, h2⟩ := State.shedVictim_suspends hs hx
      rw [h2]
      refine ⟨h1, rfl, ?_⟩
      simp [Session.shedKept]

end Sys2Proof.Machine
end
